-- ==== Sys2Proof/Word.lean ====
section
/-! DEFINITION. The word types of the NS24: a byte of the link, a 16-bit and a 32-bit quantity. -/

namespace Sys2Proof

/-- A byte on the link, in a parameter field or in the array. -/
abbrev Byte := BitVec 8

/-- A 16-bit quantity: a check (R3), a temperature (R2), a settings value (R154). -/
abbrev Half := BitVec 16

/-- A 32-bit quantity: the tick counter (R163), the status word (R176), an event's detail B (R180). -/
abbrev Word := BitVec 32

end Sys2Proof
end

