-- ==== Sys2Proof/Syntax.lean ====
section
/-! DEFINITION. The commands of the NS24: one constructor per row of spec/opcode_table.json, with the
bytes the host sends and the inputs the device looks at while it carries the command out (log 5). -/

namespace Sys2Proof

/-- What the device finds at its inputs while it carries out one command (log 5). -/
structure Env where
  /-- the level of the GUARD# pin, true for high (R131) -/
  guardHigh : Bool
  /-- the die temperature in thousandths of a degree Celsius (R118) -/
  die : Int
deriving DecidableEq, Repr

/-- What the target of an array or fuse operation reads once the operation has ended or been stopped
(R47, R145, R170): free for a failed operation, so it is an operand. -/
inductive ReadBack where
  /-- the target reads exactly as the operation meant it to -/
  | asIntended
  /-- the target reads as it did before the operation -/
  | untouched
  /-- the target reads these bytes from its first byte on, and FFh after them -/
  | differs (bytes : List Byte)
deriving DecidableEq, Repr

/-- How the external sensor and its bus behave in one sample transaction (R115, R116, R117). -/
structure BusRun where
  /-- after how many recovery acts TSDA reads high: 0 at the bus check, 1 to 9 that pulse of TSCL,
  10 the STOP that follows the ninth pulse, more never (R116) -/
  sdaHighAfter : Nat
  /-- the address byte of the write phase is acknowledged -/
  ackWrite : Bool
  /-- the pointer byte is acknowledged -/
  ackPointer : Bool
  /-- the address byte of the read phase is acknowledged -/
  ackRead : Bool
  /-- the 16-bit word of the two data bytes -/
  word : Half
deriving DecidableEq, Repr

/-- What a LEAD_BYTE brings: the byte, and GUARD# as it reads at this lead point (R5, R131, R176, log 5). -/
structure LeadPoint where
  byte : Byte
  guardHigh : Bool
deriving DecidableEq, Repr

/-- The commands: one constructor per row of the opcode table. -/
inductive Instr where
  /-- LEAD_BYTE: CS# has fallen and the first complete byte has arrived (R5). -/
  | leadByte (lead : LeadPoint)
  /-- UNKNOWN_LEAD: the lead byte is outside the lead table (R6). -/
  | unknownLead (lead : Byte)
  /-- OVER_LONG_FRAME: kind, tag and a length above 520 have arrived after the lead A1h (R8). -/
  | overLongFrame (kind tag : Byte) (len : Half)
  /-- INCOMPLETE_FRAME: CS# rises inside a SUBMIT frame or before a complement is complete (R9, R16). -/
  | incompleteFrame (lead : Byte)
  /-- SUBMIT: a complete frame with its two check bytes has arrived (R10, R11). -/
  | submit (kind tag : Byte) (params : List Byte) (check : Half) (env : Env)
  /-- FETCH: the lead point of a FETCH (R12). -/
  | fetch
  /-- REPLY_DELIVERY: the presence byte 01h of a FETCH has been shifted out (R13). -/
  | replyDelivery
  /-- REFETCH (R14). -/
  | refetch
  /-- PEEK: the lead point of a PEEK, with GUARD# as it reads there (R15, R131). -/
  | peek (env : Env)
  /-- SLEEP with the byte sent in the complement position (R159). -/
  | sleep (complement : Byte)
  /-- ENTER_DEEP_SLEEP: the entry that ends sleep pending (R160). -/
  | enterDeepSleep
  /-- WAKE with the byte sent in the complement position (R162). -/
  | wake (complement : Byte)
  /-- WAKE_READY: the array and the sensor bus are ready after a wake (R162). -/
  | wakeReady
  /-- RESET_ARM with the byte sent in the complement position (R17). -/
  | resetArm (complement : Byte)
  /-- RESET with its complement byte, and what an erase it abandons leaves behind (R18, R168). -/
  | reset (complement : Byte) (readBack : ReadBack)
  /-- DRAIN_END: nothing is in progress any more in RESETTING (R168). -/
  | drainEnd
  /-- HARDWARE_RESET: RESET# is brought low, for 1 us or longer or for less, and what the operation it
  stops leaves behind (R170). -/
  | hardwareReset (longPulse : Bool) (readBack : ReadBack)
  /-- RESET_RELEASE: RESET# rises, or the supply comes up (R170). -/
  | resetRelease (supply : Bool) (readBack : ReadBack)
  /-- MOUNT_COMPLETE: the last steps of the mount (R173). -/
  | mountComplete (env : Env)
  /-- TICK: the end of a tick period (R163). -/
  | tick
  /-- SAMPLE_AGE_TICK: a millisecond has passed (R112). -/
  | sampleAgeTick
  /-- REQUEST_START: the engine starts the oldest QUEUED request (R37). -/
  | requestStart (env : Env)
  /-- ARRAY_OPERATION_COMPLETE: a program or erase has finished and its target reads so (R47). -/
  | arrayOperationComplete (readBack : ReadBack)
  /-- ARRAY_WATCHDOG_TRIP: the watchdog stops a program or erase whose target then reads so (R47). -/
  | arrayWatchdogTrip (readBack : ReadBack)
  /-- FUSE_OPERATION_COMPLETE: a fuse program has finished and reads back so (R145). -/
  | fuseOperationComplete (readBack : ReadBack)
  /-- BACKGROUND_RECLAIM: a background operation begins (R58). -/
  | backgroundReclaim (env : Env)
  /-- RECLAIM_RECONSIDER: a paused background reclaim is reconsidered (R58). -/
  | reclaimReconsider (env : Env)
  /-- STRETCH_TIMEOUT: clock stretching has exceeded 20 ms in a sensor attempt (R117). -/
  | stretchTimeout (env : Env)
  | getIdentity (tag : Byte) (params : List Byte)
  | getSettings (tag : Byte) (params : List Byte)
  | streamInfo (tag : Byte) (params : List Byte)
  | poolInfo (tag : Byte) (params : List Byte)
  | readProfiles (tag : Byte) (params : List Byte)
  | readEvents (tag : Byte) (params : List Byte)
  | releaseEvents (tag : Byte) (params : List Byte)
  | clearAlarms (tag : Byte) (params : List Byte)
  | linkStats (tag : Byte) (params : List Byte)
  | getTime (tag : Byte) (params : List Byte)
  | setTime (tag : Byte) (params : List Byte) (env : Env)
  | arm (tag : Byte) (params : List Byte)
  | abort (tag : Byte) (params : List Byte)
  | read (tag : Byte) (params : List Byte) (env : Env)
  | readNext (tag : Byte) (params : List Byte) (env : Env)
  | seek (tag : Byte) (params : List Byte) (env : Env)
  | sampleTemperature (tag : Byte) (params : List Byte) (env : Env)
  | setTemperature (tag : Byte) (params : List Byte) (env : Env)
  | writeProfile (tag : Byte) (params : List Byte) (env : Env)
  | append (tag : Byte) (params : List Byte) (env : Env)
  | trim (tag : Byte) (params : List Byte) (env : Env)
  | createStream (tag : Byte) (params : List Byte) (env : Env)
  | deleteStream (tag : Byte) (params : List Byte) (env : Env)
  | sealStream (tag : Byte) (params : List Byte) (env : Env)
  | setHold (tag : Byte) (params : List Byte) (env : Env)
  | clearHold (tag : Byte) (params : List Byte) (env : Env)
  | format (tag : Byte) (params : List Byte) (env : Env)
  | setOption (tag : Byte) (params : List Byte) (env : Env)
  | commitProfiles (tag : Byte) (params : List Byte) (env : Env)
  | setOwnerLabel (tag : Byte) (params : List Byte) (env : Env)
  | fixGuard (tag : Byte) (params : List Byte) (env : Env)
  /-- SENSOR_ATTEMPT: the sensor answers the sample transaction so (R115). -/
  | sensorAttempt (run : BusRun) (env : Env)
  /-- TRANSACTION_END: CS# rises (R4). -/
  | transactionEnd
deriving DecidableEq, Repr

end Sys2Proof
end

