-- ==== Sys2Proof/WellFormed.lean ====
section
/-! DEFINITION. Which commands are well formed: what the rows of the opcode table say of their own
operands, and nothing about the state. The meanings answer for every command, well formed or not. -/

namespace Sys2Proof

/-- The eight lead bytes of the lead table (R5). -/
def knownLead (b : Byte) : Bool :=
  b == 0xA1 || b == 0xA2 || b == 0xA3 || b == 0xA4 || b == 0xC1 || b == 0xC2 || b == 0xC3 || b == 0xC4

/-- The largest parameter field of a request frame (R7). -/
def maxParams : Nat := 520

/-- The leads after which CS# can rise inside something the device is still collecting (R9, R16). -/
def framedLead (b : Byte) : Bool :=
  b == 0xA1 || b == 0xC1 || b == 0xC2 || b == 0xC3 || b == 0xC4

/-- A command's operands are in the range its row gives them. -/
def Instr.wellFormed : Instr → Bool
  | .leadByte _ => true
  | .unknownLead lead => !knownLead lead
  | .overLongFrame _ _ len => decide (maxParams < len.toNat)
  | .incompleteFrame lead => framedLead lead
  | .submit _ _ params _ _ => decide (params.length ≤ maxParams)
  | .fetch => true
  | .replyDelivery => true
  | .refetch => true
  | .peek _ => true
  | .sleep _ => true
  | .enterDeepSleep => true
  | .wake _ => true
  | .wakeReady => true
  | .resetArm _ => true
  | .reset _ _ => true
  | .drainEnd => true
  | .hardwareReset _ _ => true
  | .resetRelease _ _ => true
  | .mountComplete _ => true
  | .tick => true
  | .sampleAgeTick => true
  | .requestStart _ => true
  | .arrayOperationComplete _ => true
  | .arrayWatchdogTrip _ => true
  | .fuseOperationComplete _ => true
  | .backgroundReclaim _ => true
  | .reclaimReconsider _ => true
  | .stretchTimeout _ => true
  | .getIdentity _ params => decide (params.length ≤ maxParams)
  | .getSettings _ params => decide (params.length ≤ maxParams)
  | .streamInfo _ params => decide (params.length ≤ maxParams)
  | .poolInfo _ params => decide (params.length ≤ maxParams)
  | .readProfiles _ params => decide (params.length ≤ maxParams)
  | .readEvents _ params => decide (params.length ≤ maxParams)
  | .releaseEvents _ params => decide (params.length ≤ maxParams)
  | .clearAlarms _ params => decide (params.length ≤ maxParams)
  | .linkStats _ params => decide (params.length ≤ maxParams)
  | .getTime _ params => decide (params.length ≤ maxParams)
  | .setTime _ params _ => decide (params.length ≤ maxParams)
  | .arm _ params => decide (params.length ≤ maxParams)
  | .abort _ params => decide (params.length ≤ maxParams)
  | .read _ params _ => decide (params.length ≤ maxParams)
  | .readNext _ params _ => decide (params.length ≤ maxParams)
  | .seek _ params _ => decide (params.length ≤ maxParams)
  | .sampleTemperature _ params _ => decide (params.length ≤ maxParams)
  | .setTemperature _ params _ => decide (params.length ≤ maxParams)
  | .writeProfile _ params _ => decide (params.length ≤ maxParams)
  | .append _ params _ => decide (params.length ≤ maxParams)
  | .trim _ params _ => decide (params.length ≤ maxParams)
  | .createStream _ params _ => decide (params.length ≤ maxParams)
  | .deleteStream _ params _ => decide (params.length ≤ maxParams)
  | .sealStream _ params _ => decide (params.length ≤ maxParams)
  | .setHold _ params _ => decide (params.length ≤ maxParams)
  | .clearHold _ params _ => decide (params.length ≤ maxParams)
  | .format _ params _ => decide (params.length ≤ maxParams)
  | .setOption _ params _ => decide (params.length ≤ maxParams)
  | .commitProfiles _ params _ => decide (params.length ≤ maxParams)
  | .setOwnerLabel _ params _ => decide (params.length ≤ maxParams)
  | .fixGuard _ params _ => decide (params.length ≤ maxParams)
  | .sensorAttempt _ _ => true
  | .transactionEnd => true

end Sys2Proof
end

