-- ==== Sys2Proof/Machine/Bytes.lean ====
section
/-! DEFINITION. Byte order (R1), signed temperatures (R2) and the check (R3). -/

namespace Sys2Proof.Machine

/-- The byte of a number's low eight bits. -/
def byteOf (n : Nat) : Byte := BitVec.ofNat 8 n

/-- A two-byte field, most significant byte first (R1). -/
def be16 (n : Nat) : List Byte := [byteOf (n / 256), byteOf n]

/-- A four-byte field, most significant byte first (R1). -/
def be32 (n : Nat) : List Byte :=
  [byteOf (n / 16777216), byteOf (n / 65536), byteOf (n / 256), byteOf n]

/-- The number a big-endian field holds (R1). -/
def ofBe (bytes : List Byte) : Nat := bytes.foldl (fun acc b => acc * 256 + b.toNat) 0

/-- 00h or 01h. -/
def flagByte (b : Bool) : Byte := if b then 0x01 else 0x00

/-- One bit of the check: x^16 + x^15 + x^2 + 1, most significant bit first (R3). -/
def checkBit (r : Half) : Half := if r.msb then (r <<< 1) ^^^ 0x8005 else r <<< 1

/-- One byte of the check (R3). -/
def checkByte (r : Half) (b : Byte) : Half :=
  (List.range 8).foldl (fun acc _ => checkBit acc) (r ^^^ (b.zeroExtend 16 <<< 8))

/-- The check over a sequence of bytes, preset to FFFFh (R3). -/
def check (bytes : List Byte) : Half := bytes.foldl checkByte 0xFFFF

/-- The two check bytes, most significant first (R3). -/
def checkBytes (bytes : List Byte) : List Byte := be16 (check bytes).toNat

/-- Exactly `n` bytes: those given, and `pad` after them. -/
def fit (n : Nat) (pad : Byte) (bytes : List Byte) : List Byte :=
  bytes.take n ++ List.replicate (n - bytes.length) pad

/-- The value reported while the sample is absent (R2). -/
def noSample : Half := 0x8000

/-- The plausible range of a temperature, -220 to +600 quarter degrees (R112). -/
def plausible (t : Int) : Bool := decide (-220 ≤ t) && decide (t ≤ 600)

/-- A quantity of quarter degrees in 16-bit two's complement (R2). -/
def tempOf (t : Int) : Half := BitVec.ofInt 16 t

/-- Counting up to a largest value and staying there (R19, R181). -/
def satInc (n : BitVec 8) : BitVec 8 := if n = 0xFF then 0xFF else n + 1

end Sys2Proof.Machine
end

