-- ==== Sys2Proof/Config.lean ====
section
/-! DEFINITION. What the spec leaves to the device: constants with no body, so that nothing can be proved of
their values (each is named in an entry of the assumption log), and the fixed quantities of section 1.3. -/

namespace Sys2Proof

/-- Whether the `n`-th low pulse of RESET# shorter than 1 us makes a hardware reset (R170, log 17). -/
opaque Config.shortPulseResets : Nat → Bool

/-- Whether a die temperature exactly between two whole degrees is rounded up (R118, log 16). -/
opaque Config.dieTieRoundsUp : Int → Bool

/-- Whether WRAP_EVICT is raised before the SEGMENT_RETIRED of the same catalogue entry (R57, R95, log 18). -/
opaque Config.evictEventFirst : Bool

/-- Of two catalogue segments that hold valid images of one generation number, whether the first is the
newer (R64, log 12). -/
opaque Config.firstIsNewer : Nat → Nat → Bool

/-- The generation number of the image that follows the one of generation FFFFFFFFh (R59, R61, log 40). -/
opaque Config.generationPastLast : Word

/-- The link number of the segment linked next to a stream whose newest has link number FFFFFFFFh (R52, log 52). -/
opaque Config.linkNumberPastLast : Word

/-- What byte `i` of an owner label that was never programmed reads as (R145, R153, log 19). -/
opaque Config.blankLabelByte : Nat → Byte

/-- Whether the `n`-th reconsideration of a paused reclaim that finds the sample not due refreshes it all the same
(R58 and R125 against R114, log 13). -/
opaque Config.reconsiderRefreshes : Nat → Bool

/-- Segments of the array (R46). -/
def segmentCount : Nat := 1024
/-- The first data segment (R46). -/
def firstData : Nat := 4
/-- Bytes of a segment (R46). -/
def segmentSize : Nat := 32768
/-- Bytes of a page (R46). -/
def pageSize : Nat := 512
/-- Entry positions of a catalogue segment (R59). -/
def cataloguePositions : Nat := 768
/-- Pages 1 to 15 of a catalogue segment hold the image (R59). -/
def lastImagePage : Nat := 15
/-- The number of streams (R68). -/
def streamCount : Nat := 16
/-- The number of contexts (R23). -/
def contextCount : Nat := 8
/-- The most media contexts (R24). -/
def maxMedia : Nat := 6
/-- The most events in the list (R181). -/
def maxEvents : Nat := 16
/-- The largest erase count (R50). -/
def maxEraseCount : Nat := 0xFFFFFF
/-- The largest age of a sample (R112). -/
def maxAge : Nat := 0xFFFFFFFE
/-- The largest value of a stream's next (R70). -/
def lastNext : Nat := 0xFFFFFFFF

end Sys2Proof
end

