-- ==== Sys2Proof/Machine/State.lean ====
section
/-! DEFINITION. The state of the NS24 as plain data: everything the spec gives the part (INVENTORY.md, State),
the waiting commands, and the state after reset. -/

namespace Sys2Proof.Machine

/-- There is no fault: no condition of the spec stops the part (R186 and section 10.6). -/
inductive Fault where
deriving DecidableEq, Repr

/-- Why a command has no meaning. -/
inductive Refusal where
  /-- Raised by exec's arm of a command the model gives no meaning (safe: the run stops). No arm uses it. -/
  | notModelled (mnemonic : String)
deriving DecidableEq, Repr

/-! ### Codes -/

/-- The device states of R158. -/
inductive DevState where
  | mounting | running | resetting | deepSleep | faulted
deriving DecidableEq, Repr

/-- The request kinds of the summary table (section 2.2, R26). -/
inductive Kind where
  | getIdentity | getSettings | streamInfo | poolInfo | readProfiles | readEvents | releaseEvents | clearAlarms
  | linkStats | getTime | setTime | arm | abort
  | read | readNext | seek | sampleTemperature | setTemperature | writeProfile
  | append | trim | createStream | deleteStream | sealStream | setHold | clearHold | format | setOption
  | commitProfiles | setOwnerLabel | fixGuard
deriving DecidableEq, Repr

/-- The reply status codes of R185. -/
inductive Status where
  | ok | clamped | cursorSkipped
  | badParam | streamAbsent | streamExists | streamSealed | streamFull | poolEmpty | notRetained | notYet
  | seqExhausted | wrongSource | sensorFailed
  | guarded | held | notArmed | tempInhibit | readOnly
  | damagedData | mediaFault | fuseFault | noBank | fuseSpent
  | aborted
deriving DecidableEq, Repr

/-- The intake codes of R27. -/
inductive Intake where
  | accepted | notReady | frameError | unknownKind | tagInUse | noContext | queueFull | deviceFault
deriving DecidableEq, Repr

/-- The event kinds of R180. -/
inductive EventKind where
  | mounted | tornRecord | segmentRetired | catalogueDegraded | poolLow | poolEmpty | wrapEvict | sensorFault
  | sensorFallback | profileChanged | fuseFault
deriving DecidableEq, Repr

/-- The reasons for which a segment is retired (R57). -/
inductive RetireReason where
  | eraseVerify | eraseWatchdog | descriptorFailed | suspectUnlinked
deriving DecidableEq, Repr

/-- The reasons for which an external attempt fails (R117). -/
inductive SensorReason where
  | addressNack | dataNack | busStuck | stretchTimeout | implausible
deriving DecidableEq, Repr

/-- The sources of a sample (R112). -/
inductive Source where
  | external | internal | host
deriving DecidableEq, Repr

/-! ### The media array and the streams -/

/-- The states of a segment (R50). -/
inductive SegState where
  | system | free | linked | dirty | retired
deriving DecidableEq, Repr

/-- One entry of the segment table (R50). -/
structure SegEntry where
  state : SegState
  eraseCount : Nat
  suspect : Bool
deriving DecidableEq, Repr

/-- A segment of a stream's list with what its link entry recorded (R71, R75). -/
structure SegLink where
  seg : Nat
  linkNumber : Word
  firstSeq : Nat
deriving DecidableEq, Repr

/-- The states of a stream (R69). -/
inductive StreamState where
  | absent | opened | sealed
deriving DecidableEq, Repr

/-- How a stream behaves when it reaches its quota (R73). -/
inductive Retention where
  | wrap | halt
deriving DecidableEq, Repr

/-- One entry of the stream table (R68); its id is its position. -/
structure Stream where
  state : StreamState
  slotSize : Nat
  retention : Retention
  quota : Nat
  timeOption : Bool
  tempOption : Bool
  label : Option (List Byte)
  start : Nat
  oldest : Nat
  next : Nat
  /-- next as the last structural change recorded it (R75) -/
  recordedNext : Nat
  segs : List SegLink
  writePos : Nat
  /-- a failed program has closed the newest segment: no further slot of it is used, and it counts as full (R48) -/
  closed : Bool
  hold : Bool
  cursor : Nat
deriving DecidableEq, Repr

/-- The settings image: nine items in the order of their codes 01h to 09h (R154). -/
structure Settings where
  guardMode : Half
  sensorSource : Half
  sensorAddress : Half
  sensorPointer : Half
  sensorFormat : Half
  refreshInterval : Half
  tickPeriod : Half
  alertMask : Half
  poolLowThreshold : Half
deriving DecidableEq, Repr

/-- What the catalogue records (R59): the stream table, the segment table with the dirty list, the usable
flags of the catalogue segments, and the settings. -/
structure Tables where
  streams : List Stream
  segs : List SegEntry
  dirty : List Nat
  usable : List Bool
  settings : Settings
deriving DecidableEq, Repr

/-- A catalogue entry: one structural change (R59, R75). -/
inductive Entry where
  | created (id : Nat) (stream : Stream)
  | sealed (id next : Nat)
  | trimmed (id oldest : Nat) (segs : List Nat)
  | evicted (id oldest : Nat) (segs : List Nat)
  | deleted (id : Nat)
  | holdSet (id : Nat)
  | holdCleared (id : Nat)
  | formatted
  | linked (seg id : Nat) (linkNumber : Word) (firstSeq : Nat)
  | suspect (seg : Nat)
  | retired (seg : Nat) (reason : RetireReason)
  | erased (seg count : Nat)
  | setting (code : Nat) (value : Half)
  | unusable (segment : Nat)
deriving DecidableEq, Repr

/-- What stands in a used entry position: an entry whose check matches, or a position spent by a failed
program, which may read fully erased or not (R60, R64). -/
inductive Position where
  | entry (e : Entry)
  | spent (readsErased : Bool)
deriving DecidableEq, Repr

/-- A catalogue segment (R59): the generation of four bytes in its header, how many of its image pages are programmed,
the image once it is complete, its validity mark, its entry positions from position 0 on, and whether anything else in
it reads otherwise than erased. -/
structure CatSegment where
  generation : Option Word
  pages : Nat
  image : Option Tables
  mark : Bool
  positions : List Position
  soiled : Bool
deriving DecidableEq, Repr

/-- The catalogue position (R59): the active segment (none on a fresh device, R64), its fill and generation, and
the read-only condition (R63). -/
structure CatPosition where
  active : Option Nat
  fill : Nat
  generation : Word
  readOnly : Bool
deriving DecidableEq, Repr

/-! ### Temperature and fuses -/

/-- The sample (R112). -/
structure Sample where
  value : Option Half
  source : Option Source
  age : Nat
  stale : Bool
  dueMark : Bool
  failures : Nat
  fallback : Bool
deriving DecidableEq, Repr

/-- A write profile (R122). -/
structure Profile where
  used : Bool
  low : Half
  high : Half
  permits : Bool
  programClass : Nat
  eraseClass : Nat
deriving DecidableEq, Repr

/-- The state of a guard-fix cell (R143). -/
inductive GuardCell where
  | untried | failed | blown
deriving DecidableEq, Repr

/-- The bank state (R146). -/
inductive BankState where
  | fresh | aUsed | bUsed
deriving DecidableEq, Repr

/-- The origin of the profile table loaded at the last mount (R147). -/
inductive Origin where
  | factory | bankA | bankB
deriving DecidableEq, Repr

/-- The state of the owner label (R151). -/
inductive LabelState where
  | absent | present | damaged
deriving DecidableEq, Repr

/-- The working copies of the fuse store (R145). -/
structure FuseCopies where
  identity : List Byte
  identityOk : Bool
  guardA : GuardCell
  guardB : GuardCell
  bank : BankState
  origin : Origin
  labelState : LabelState
  label : List Byte
deriving DecidableEq, Repr

/-- The cells of the fuse store (R145). A bank or label that was never programmed is `none`. -/
structure FuseStore where
  identity : List Byte
  identityCheck : Half
  attemptA : Bool
  cellA : Bool
  attemptB : Bool
  cellB : Bool
  markerA : Bool
  markerB : Bool
  bankA : Option (List Byte)
  bankB : Option (List Byte)
  labelMarker : Bool
  label : Option (List Byte)
deriving DecidableEq, Repr

/-- The cells that are programmed one at a time (R144, R150, R152). -/
inductive FuseCell where
  | attemptA | cellA | attemptB | cellB | markerA | markerB | labelMarker
deriving DecidableEq, Repr

/-- The objects whose contents are programmed behind a marker (R150, R152). -/
inductive FuseArea where
  | bankA | bankB | label
deriving DecidableEq, Repr

/-! ### Events and committed state -/

/-- The tick counter and TIME_UNSET as they stand at an instant (R89, R180). -/
structure Stamp where
  tick : Word
  unset : Bool
deriving DecidableEq, Repr

/-- An event that has been raised and has no number yet (R180, R181). -/
structure Raised where
  kind : EventKind
  stamp : Stamp
  detailA : Byte
  detailB : Word
deriving DecidableEq, Repr

/-- An event of the event list (R180). -/
structure Event where
  number : Half
  what : Raised
deriving DecidableEq, Repr

/-- Committed state (R36): what the last completed request and the last finished background operation left.
An executing request or a background operation works on a copy of it. -/
structure Committed where
  tables : Tables
  cat : CatPosition
  sample : Sample
  profiles : List Profile
  activeProfile : Nat
  fuse : FuseCopies
deriving DecidableEq, Repr

/-! ### Requests -/

/-- What a context keeps of its request from acceptance on (R23). -/
structure Request where
  tag : Byte
  kind : Kind
  params : List Byte
  armed : Bool
  acceptance : Nat
deriving DecidableEq, Repr

/-- How far an accepted request has come (R24). -/
inductive Progress where
  | queued
  | executing
  | done (completion : Nat) (status : Status) (payload : List Byte)
deriving DecidableEq, Repr

/-- One of the eight contexts (R23). -/
inductive Context where
  | free
  | held (request : Request) (progress : Progress)
deriving DecidableEq, Repr

/-- A delivered reply, as the echo buffer keeps it (R13, R42). -/
structure Reply where
  tag : Byte
  kind : Kind
  status : Status
  payload : List Byte
deriving DecidableEq, Repr

/-- The pair of the arm latch (R139); the stream id is 0 for the kinds that use none. -/
structure ArmPair where
  kind : Kind
  id : Byte
deriving DecidableEq, Repr

/-! ### Work in progress -/

/-- The physical operation in progress: at most one (R47, R115, R145). An array operation keeps the timing
class it started with (R47). -/
inductive Operation where
  /-- a sample transaction on the sensor bus -/
  | sensor
  /-- a program of bytes of a data segment -/
  | program (cells : List Host.Cell) (timing : Nat)
  /-- an erase of a data segment -/
  | erase (seg : Nat) (timing : Nat)
  /-- an erase of a catalogue segment -/
  | catErase (segment : Nat) (timing : Nat)
  /-- a program of the generation (page 0) or of image page 1 to 15 of a catalogue segment -/
  | catPage (segment page : Nat) (generation : Word) (image : Tables) (timing : Nat)
  /-- a program of a catalogue segment's validity mark -/
  | catMark (segment : Nat) (timing : Nat)
  /-- a program of an entry -/
  | catEntry (segment position : Nat) (entry : Entry) (timing : Nat)
  /-- a program of one fuse cell -/
  | fuseCell (cell : FuseCell)
  /-- a program of the contents behind a marker -/
  | fuseBytes (area : FuseArea) (bytes : List Byte)
deriving DecidableEq, Repr

/-- Who the work in progress belongs to: the request of a context, or the Media Manager. -/
inductive Owner where
  | request (context : Nat) (request : Request)
  | background
deriving DecidableEq, Repr

/-- The work in progress: its working copy, the events waiting in it and the alarms it will latch. -/
structure Task where
  owner : Owner
  work : Committed
  events : List Raised
  alarms : BitVec 6
deriving DecidableEq, Repr

/-- What an APPEND captured at step 6 (R89), and how far it has come (R94 to R99). -/
structure AppendData where
  id : Nat
  payload : List Byte
  stamp : Stamp
  temperature : Half
  flags : Byte
  profile : Nat
  evicted : Nat
  secondAttempt : Bool
deriving DecidableEq, Repr

/-- What follows once the catalogue entries in hand are written. -/
inductive After where
  /-- the request completes OK with this payload -/
  | reply (payload : List Byte)
  /-- a FORMAT completes OK with this payload and the usable catalogue segments as they then stand (R83) -/
  | formatReply (payload : List Byte)
  /-- a SET_OPTION takes its effect and completes OK (R156) -/
  | option (code : Nat) (payload : List Byte)
  /-- an APPEND asks for a segment, `gain` more records having been evicted (R95, R96) -/
  | allocate (a : AppendData) (gain : Nat)
  /-- an APPEND writes its record into the segment just linked (R98) -/
  | record (a : AppendData)
  /-- an APPEND whose mark program failed but reads 5Ah completes (R99) -/
  | recorded (a : AppendData) (seg slot : Nat)
  /-- an APPEND starts its second attempt (R99) -/
  | retry (a : AppendData)
  /-- an APPEND whose second attempt failed completes MEDIA_FAULT (R99) -/
  | giveUp (a : AppendData)
  /-- the background operation ends (R58) -/
  | backgroundEnd
deriving DecidableEq, Repr

/-- What the catalogue writer still has to do, in order (R60, R61). -/
inductive CatAction where
  | write (e : Entry)
  | eraseFormer (segment : Nat)
deriving DecidableEq, Repr

/-- Where a compaction target stands (R61, R85). -/
inductive TargetStep where
  | erasing
  | page (n : Nat)
  | marking
deriving DecidableEq, Repr

/-- A compaction in progress: the targets left with the one in hand first, those already found unusable. -/
structure Compaction where
  targets : List Nat
  bad : List Nat
  step : TargetStep
deriving DecidableEq, Repr

/-- The catalogue writer's work in hand. -/
structure CatWork where
  queue : List CatAction
  compaction : Option Compaction
  after : After
deriving DecidableEq, Repr

/-- What the operation in progress is for. -/
inductive Stage where
  /-- the refresh of step 6 of R39 -/
  | refresh
  /-- the refresh of SAMPLE_TEMPERATURE -/
  | sampling
  /-- the refresh of a background operation -/
  | backgroundRefresh
  | catalogue (w : CatWork)
  /-- the erase of a background operation -/
  | backgroundErase (seg : Nat)
  /-- the descriptor of an allocation (R53) -/
  | descriptor (a : AppendData) (seg : Nat)
  /-- an erase of forced reclaim (R56) -/
  | forcedErase (a : AppendData) (seg : Nat)
  /-- the body program of a record (R90) -/
  | body (a : AppendData) (seg slot : Nat)
  /-- the mark program of a record (R90) -/
  | mark (a : AppendData) (seg slot : Nat)
  /-- a FORMAT in FAULTED (R85) -/
  | format (targets bad : List Nat) (step : TargetStep)
  /-- the attempt cell of guard-fix cell A or, `second`, B (R144) -/
  | guardAttempt (second : Bool)
  /-- guard-fix cell A or, `second`, B (R144) -/
  | guardFix (second : Bool)
  /-- the marker of bank A or, `second`, B (R150) -/
  | bankMarker (second : Bool)
  | bankContents (second : Bool)
  | labelMarker (bytes : List Byte)
  | labelContents (bytes : List Byte)
deriving DecidableEq, Repr

/-- Work in progress: a task waiting for an operation to end. -/
structure Job where
  task : Task
  op : Operation
  stage : Stage
deriving DecidableEq, Repr

/-! ### The link, the sensor bus, the mount -/

/-- SDO (R4): not driven, or driving `bytes` in the next byte positions and `fill` in every later one. -/
inductive Sdo where
  | highZ
  | drive (bytes : List Byte) (fill : Byte)
deriving DecidableEq, Repr

/-- The transaction decoder (R4, R5). -/
inductive Txn where
  /-- CS# is high -/
  | idle
  /-- the lead byte has been decoded, the reset-arm flag having been sampled so (R17), and the rest of the
  transaction has not arrived -/
  | lead (b : Byte) (sampled : Bool)
  /-- a FETCH has chosen this context and its presence byte 01h is being shifted out (R12, R13) -/
  | presence (context : Nat)
  /-- the transaction has been decoded to its end, or abandoned: further bytes are ignored (R4, R8) -/
  | ended
  /-- an assertion treated as no transaction (R22, R160), with the lead byte it had, if any -/
  | noTransaction (lead : Option Byte)
deriving DecidableEq, Repr

/-- What the Thermal Unit does on the sensor bus (R115, R116, R117). -/
inductive BusAct where
  /-- TSCL low and high once, in a recovery -/
  | pulse
  | start
  | repeatedStart
  | stop
  /-- a byte sent, and whether the sensor acknowledged it -/
  | sent (b : Byte) (acknowledged : Bool)
  /-- a byte received, and whether the THU acknowledged it -/
  | received (b : Byte) (acknowledged : Bool)
  /-- both lines released -/
  | release
deriving DecidableEq, Repr

/-- What the mount found (R171, R173). -/
inductive MountOutcome where
  | image | fresh | faulted
deriving DecidableEq, Repr

/-- The state of the NS24 (INVENTORY.md, State). -/
structure State where
  /-- the commands that wait, first in first out -/
  pending : List Instr
  /-- the MODEL's counter for free values (log 32) -/
  freeDraws : Nat
  -- pins
  resetLow : Bool
  csLow : Bool
  guardHigh : Bool
  alertLow : Bool
  sdo : Sdo
  sensorLog : List BusAct
  -- Host Link Unit
  txn : Txn
  /-- what SDO drove in the lead byte position of the latest assertion of CS#; none: high-impedance (R4, R21, R22) -/
  leadSdo : Option Byte
  /-- the context that the lead point of the latest transaction chose for a FETCH to deliver (R12) -/
  offered : Option Nat
  resetArm : Bool
  frameErrors : BitVec 8
  incompleteFrames : BitVec 8
  unknownLeads : BitVec 8
  -- Request Manager
  contexts : List Context
  nextAcceptance : Nat
  nextCompletion : Nat
  echo : Option Reply
  armLatch : Option ArmPair
  -- the committed state of the Journal Engine, Media Manager, Thermal Unit and Fuse Store, and work in progress
  committed : Committed
  job : Option Job
  -- the array and the fuse cells
  flash : List Host.Cell
  catSegs : List CatSegment
  fuses : FuseStore
  -- Media Manager
  reclaimPaused : Bool
  reconsider : Bool
  poolLow : Bool
  poolLowArmed : Bool
  -- Supervisor
  dev : DevState
  sleepPending : Bool
  ready : Bool
  mountOutcome : MountOutcome
  mountSampled : Bool
  tornFound : Nat
  /-- the index that the mount of a device in FAULTED selected, which the status word shows there and, after a RESET that
  acts there, in RESETTING (R177); none: the committed index is shown -/
  faultedProfile : Option Nat
  tick : Word
  timeUnset : Bool
  tickPeriod : Nat
  alarms : BitVec 6
  events : List Event
  nextEvent : Half
  overflow : BitVec 8
deriving DecidableEq, Repr

/-! ### Values at reset and on delivery -/

/-- An ABSENT stream: its list is empty, its hold off, and every other field but the state is without meaning (R68).
The values those fields hold are the model's (DESIGN CHOICE, log 46). -/
def Stream.absent : Stream where
  state := .absent
  slotSize := 64
  retention := .wrap
  quota := 0
  timeOption := false
  tempOption := false
  label := none
  start := 0
  oldest := 0
  next := 0
  recordedNext := 0
  segs := []
  writePos := 0
  closed := false
  hold := false
  cursor := 0

/-- The factory values of R154. -/
def Settings.factory : Settings where
  guardMode := 0x0000
  sensorSource := 0x0001
  sensorAddress := 0x004C
  sensorPointer := 0x0000
  sensorFormat := 0x0000
  refreshInterval := 0x03E8
  tickPeriod := 0x000A
  alertMask := 0x07BF
  poolLowThreshold := 0x0010

/-- The tables of a fresh device (R64). -/
def Tables.fresh : Tables where
  streams := List.replicate streamCount Stream.absent
  segs := List.replicate firstData ⟨.system, 0, false⟩ ++ List.replicate (segmentCount - firstData) ⟨.free, 0, false⟩
  dirty := []
  usable := List.replicate firstData true
  settings := Settings.factory

/-- A fully erased catalogue segment. -/
def CatSegment.erased : CatSegment where
  generation := none
  pages := 0
  image := none
  mark := false
  positions := []
  soiled := false

/-- The catalogue position of a fresh device (R64). -/
def CatPosition.fresh : CatPosition where
  active := none
  fill := 0
  generation := 0
  readOnly := false

/-- The sample after every reset, before the mount's sampling step (R112). -/
def Sample.initial : Sample where
  value := none
  source := none
  age := 0
  stale := false
  dueMark := true
  failures := 0
  fallback := false

/-- The factory table of R122. -/
def factoryProfiles : List Profile :=
  [ ⟨true, 0x8000, 0x7FFF, true, 1, 1⟩,
    ⟨true, 0x8000, 0xFF88, false, 0, 0⟩,
    ⟨true, 0xFF88, 0x0000, true, 3, 3⟩,
    ⟨true, 0x0154, 0x01A4, true, 2, 2⟩,
    ⟨true, 0x01A4, 0x7FFF, false, 0, 0⟩,
    ⟨false, 0x0000, 0x0000, false, 0, 0⟩,
    ⟨false, 0x0000, 0x0000, false, 0, 0⟩,
    ⟨false, 0x0000, 0x0000, false, 0, 0⟩ ]

/-- The identity record of R145, with the serial number the model names (log 8). -/
def factoryIdentity : List Byte :=
  [0x47, 0x24, 0x04, 0x00, 0x42, 0, 0, 0, 0, 0, 0, 0, 0]

/-- The fuse store on delivery (R145); the check over the identity record is that of R3. -/
def FuseStore.delivered : FuseStore where
  identity := factoryIdentity
  identityCheck := 0x91DB
  attemptA := false
  cellA := false
  attemptB := false
  cellB := false
  markerA := false
  markerB := false
  bankA := none
  bankB := none
  labelMarker := false
  label := none

/-- The working copies the mount takes from a delivered fuse store (R145). -/
def FuseCopies.delivered : FuseCopies where
  identity := factoryIdentity
  identityOk := true
  guardA := .untried
  guardB := .untried
  bank := .fresh
  origin := .factory
  labelState := .absent
  label := List.replicate 16 0

/-- The committed state of a fresh, delivered device before the mount's sampling step (R64, R171). -/
def Committed.fresh : Committed where
  tables := Tables.fresh
  cat := CatPosition.fresh
  sample := Sample.initial
  profiles := factoryProfiles
  activeProfile := 0
  fuse := FuseCopies.delivered

/-- The machine right after reset: a delivered device whose supply has come up with RESET# and CS# high, in
MOUNTING, with steps 1 to 5 of the mount done (R65, R158, R170, R171, R175; log 7). -/
def State.reset : State where
  pending := []
  freeDraws := 0
  resetLow := false
  csLow := false
  guardHigh := true
  alertLow := false
  sdo := .highZ
  sensorLog := []
  txn := .idle
  leadSdo := none
  offered := none
  resetArm := false
  frameErrors := 0
  incompleteFrames := 0
  unknownLeads := 0
  contexts := List.replicate contextCount .free
  nextAcceptance := 0
  nextCompletion := 0
  echo := none
  armLatch := none
  committed := Committed.fresh
  job := none
  flash := []
  catSegs := List.replicate firstData CatSegment.erased
  fuses := FuseStore.delivered
  reclaimPaused := false
  reconsider := false
  poolLow := false
  poolLowArmed := true
  dev := .mounting
  sleepPending := false
  ready := true
  mountOutcome := .fresh
  mountSampled := false
  tornFound := 0
  faultedProfile := none
  tick := 0
  timeUnset := true
  tickPeriod := 10
  alarms := 0
  events := []
  nextEvent := 0
  overflow := 0

end Sys2Proof.Machine
end

