-- ==== Sys2Proof/Machine/Ops.lean ====
section
/-! DEFINITION. The named operations over the array, the segment table, the stream table and the contexts. -/

namespace Sys2Proof.Machine

/-! ### The data segments of the array as bytes -/

/-- What a byte that is not listed reads as: the erased value (section 3.2, R65). -/
def erasedByte : Byte := 0xFF

/-- The byte at an address. -/
def readByte : List Host.Cell → Nat → Byte
  | [], _ => erasedByte
  | (k, v) :: rest, a => if k = a then v else readByte rest a

/-- Store a byte, keeping the canonical form: addresses rising, no entry that reads FFh. -/
def writeByte : List Host.Cell → Nat → Byte → List Host.Cell
  | [], a, b => if b = erasedByte then [] else [(a, b)]
  | (k, v) :: rest, a, b =>
    if a < k then (if b = erasedByte then (k, v) :: rest else (a, b) :: (k, v) :: rest)
    else if a = k then (if b = erasedByte then rest else (a, b) :: rest)
    else (k, v) :: writeByte rest a b

/-- Store a run of cells, one after another. -/
def writeCells (m : List Host.Cell) (cells : List Host.Cell) : List Host.Cell :=
  cells.foldl (fun acc c => writeByte acc c.1 c.2) m

/-- The `n` bytes from an address on. -/
def readRange (m : List Host.Cell) (a n : Nat) : List Byte :=
  (List.range n).map (fun i => readByte m (a + i))

/-- The cells of consecutive bytes from an address on. -/
def cellsAt (a : Nat) : List Byte → List Host.Cell
  | [] => []
  | b :: rest => (a, b) :: cellsAt (a + 1) rest

/-- The canonical form of the array's memory. -/
def Memory.wf (m : List Host.Cell) : Bool :=
  decide ((m.map Prod.fst).Pairwise (· < ·)) && m.all (fun c => c.2 != erasedByte)

/-- The address of a segment's first byte (R46). -/
def segBase (seg : Nat) : Nat := seg * segmentSize

/-- An address lies in a segment (R46). -/
def inSegment (seg a : Nat) : Bool := decide (segBase seg ≤ a) && decide (a < segBase seg + segmentSize)

/-- The listed bytes of a segment, in rising address. -/
def segmentCells (m : List Host.Cell) (seg : Nat) : List Host.Cell :=
  m.filter (fun c => inSegment seg c.1)

/-- The array with a segment erased: every byte of it reads FFh (section 3.2). -/
def eraseSegment (m : List Host.Cell) (seg : Nat) : List Host.Cell :=
  m.filter (fun c => !inSegment seg c.1)

/-- Slots of a data segment (R46): whole slots of pages 1 to 63. -/
def slotsPerSegment (slotSize : Nat) : Nat := 63 * (pageSize / slotSize)

/-- The address of a slot: slots lie from page 1 upward (R46). -/
def slotBase (seg slotSize slot : Nat) : Nat := segBase seg + pageSize + slot * slotSize

/-- The value of a commit mark (R88). -/
def commitMark : Byte := 0x5A

/-- The offset of the commit mark in a slot (R88). -/
def markOffset : Nat := 7

/-- The slot indices of a segment whose commit mark reads 5Ah, in rising order (R90). -/
def committedSlots (m : List Host.Cell) (seg slotSize : Nat) : List Nat :=
  ((segmentCells m seg).filter (fun c =>
      decide (segBase seg + pageSize ≤ c.1) && decide ((c.1 - segBase seg - pageSize) % slotSize = markOffset)
        && c.2 == commitMark)).map (fun c => (c.1 - segBase seg - pageSize) / slotSize)

/-- One more than the highest slot that does not read fully erased, or 0 (R76). -/
def usedSlots (m : List Host.Cell) (seg slotSize : Nat) : Nat :=
  (segmentCells m seg).foldl (fun acc c =>
    if segBase seg + pageSize ≤ c.1 then max acc ((c.1 - segBase seg - pageSize) / slotSize + 1) else acc) 0

/-- Drop neighbouring equal numbers. -/
def dropRepeats : List Nat → List Nat
  | [] => []
  | x :: rest =>
    match dropRepeats rest with
    | [] => [x]
    | y :: ys => if x = y then y :: ys else x :: y :: ys

/-- The data segments that do not read fully erased, in rising index (R85). -/
def unerasedSegments (m : List Host.Cell) : List Nat :=
  (dropRepeats (m.map (fun c => c.1 / segmentSize))).filter
    (fun s => decide (firstData ≤ s) && decide (s < segmentCount))

/-- The data segments whose descriptor page is not fully erased, in rising index (R64). -/
def describedSegments (m : List Host.Cell) : List Nat :=
  unerasedSegments (m.filter (fun c => decide (c.1 % segmentSize < pageSize)))

/-! ### What an operation leaves in its target (R47, R170) -/

/-- The addressed bytes of a program as they read afterwards. -/
def landedCells (cells : List Host.Cell) : ReadBack → List Host.Cell
  | .asIntended => cells
  | .untouched => cells.map (fun c => (c.1, erasedByte))
  | .differs bytes => (cells.zip (fit cells.length erasedByte bytes)).map (fun p => (p.1.1, p.2))

/-- The array after a program. -/
def flashAfterProgram (m : List Host.Cell) (cells : List Host.Cell) (rb : ReadBack) : List Host.Cell :=
  writeCells m (landedCells cells rb)

/-- The array after an erase of a data segment. -/
def flashAfterErase (m : List Host.Cell) (seg : Nat) : ReadBack → List Host.Cell
  | .asIntended => eraseSegment m seg
  | .untouched => m
  | .differs bytes => writeCells (eraseSegment m seg) (cellsAt (segBase seg) (bytes.take segmentSize))

/-! ### Catalogue segments -/

/-- One greater, in four bytes; what follows FFFFFFFFh is `pastLast`. -/
def nextNumber (pastLast n : Word) : Word := if n = 0xFFFFFFFF then pastLast else n + 1

/-- The generation number of the image that follows one of this generation: one greater, in four bytes. What follows
FFFFFFFFh is a free value (R59, R61; DESIGN CHOICE, log 40). -/
def nextGeneration (g : Word) : Word := nextNumber Config.generationPastLast g

/-- The link number of the segment linked behind one of this link number: one greater, in four bytes. What follows
FFFFFFFFh is a free value (R52; DESIGN CHOICE, log 52). -/
def nextLinkNumber (n : Word) : Word := nextNumber Config.linkNumberPastLast n

/-- An entry position reads fully erased. -/
def Position.readsErased : Position → Bool
  | .entry _ => false
  | .spent e => e

/-- A catalogue segment reads fully erased (R61, R64). -/
def CatSegment.readsErased (c : CatSegment) : Bool :=
  c.generation.isNone && c.pages == 0 && c.image.isNone && !c.mark && c.positions.all Position.readsErased
    && !c.soiled

/-- A catalogue segment holds a valid image (R59). -/
def CatSegment.valid (c : CatSegment) : Bool := c.mark && c.generation.isSome && c.image.isSome

/-- The number of positions up to the highest that does not read fully erased (R64). -/
def usedPositions (ps : List Position) : Nat :=
  (ps.reverse.dropWhile Position.readsErased).length

/-- A read-back that reads fully erased where erased bytes were. -/
def leavesErased : ReadBack → Bool
  | .asIntended => false
  | .untouched => true
  | .differs bytes => bytes.all (· == erasedByte)

/-- A catalogue segment after an erase of it. What a failed erase leaves is undefined; it never reads as a
valid image or entry (log 10). -/
def CatSegment.afterErase (c : CatSegment) : ReadBack → CatSegment
  | .asIntended => CatSegment.erased
  | .untouched => c
  | .differs bytes => { CatSegment.erased with soiled := bytes.any (· != erasedByte) }

/-- A catalogue segment after a program of page 0's generation or of an image page (R61). -/
def CatSegment.afterPage (c : CatSegment) (page : Nat) (generation : Word) (image : Tables) (rb : ReadBack) : CatSegment :=
  if rb = .asIntended then
    if page = 0 then { c with generation := some generation }
    else { c with pages := page, image := if page = lastImagePage then some image else c.image }
  else { c with soiled := c.soiled || !leavesErased rb }

/-- A catalogue segment after a program of its validity mark (R61). One that the watchdog stopped has failed whatever it
left (R47), and its segment holds no valid image: a FORMAT whose last target fails so has written nothing usable (R85, log
10). -/
def CatSegment.afterMark (c : CatSegment) (rb : ReadBack) (tripped : Bool) : CatSegment :=
  if rb = .asIntended ∧ tripped = false then { c with mark := true }
  else { c with soiled := c.soiled || !leavesErased rb }

/-- A catalogue segment after a program of an entry at a position: the entry, or a spent position (R60). A
program that the watchdog or a hardware reset stopped is spent whatever it left. -/
def CatSegment.afterEntry (c : CatSegment) (position : Nat) (e : Entry) (rb : ReadBack) (tripped : Bool) : CatSegment :=
  { c with positions := c.positions.take position ++
      [if rb = .asIntended then (if tripped then .spent false else .entry e) else .spent (leavesErased rb)] }

/-! ### The segment table -/

/-- One entry of the segment table. -/
def Tables.seg (t : Tables) (i : Nat) : SegEntry := t.segs.getD i ⟨.retired, 0, false⟩

/-- The table with one entry replaced. -/
def Tables.setSeg (t : Tables) (i : Nat) (e : SegEntry) : Tables := { t with segs := t.segs.set i e }

/-- How many data segments stand in a state (R67). -/
def Tables.countSegs (t : Tables) (st : SegState) : Nat :=
  (t.segs.drop firstData).countP (fun e => e.state == st)

/-- The available count of R66. -/
def Tables.available (t : Tables) : Nat := t.countSegs .free + t.countSegs .dirty

/-- Erase counts of the data segments that are not RETIRED (R67). -/
def Tables.liveEraseCounts (t : Tables) : List Nat :=
  ((t.segs.drop firstData).filter (fun e => e.state != .retired)).map SegEntry.eraseCount

/-- From index `i` on, the FREE segment with the lowest erase count, the lowest index among equals; `best`
is the best seen so far. -/
def lowestFree : List SegEntry → Nat → Option (Nat × Nat) → Option (Nat × Nat)
  | [], _, best => best
  | e :: rest, i, best =>
    lowestFree rest (i + 1)
      (if e.state = .free then
        match best with
        | none => some (i, e.eraseCount)
        | some (j, n) => if e.eraseCount < n then some (i, e.eraseCount) else some (j, n)
      else best)

/-- The FREE data segment an allocation chooses (R53). -/
def Tables.chooseFree (t : Tables) : Option Nat :=
  (lowestFree (t.segs.drop firstData) firstData none).map Prod.fst

/-- The number of usable catalogue segments (R62). -/
def Tables.usableCount (t : Tables) : Nat := t.usable.countP (· == true)

/-! ### The stream table -/

/-- One entry of the stream table. -/
def Tables.stream (t : Tables) (id : Nat) : Stream := t.streams.getD id Stream.absent

/-- The table with one stream replaced. -/
def Tables.setStream (t : Tables) (id : Nat) (s : Stream) : Tables := { t with streams := t.streams.set id s }

/-- Bytes a record's optional fields take (R74, R88). -/
def Stream.optionBytes (s : Stream) : Nat := (if s.timeOption then 4 else 0) + (if s.tempOption then 2 else 0)

/-- The largest payload of R74. -/
def Stream.maxPayload (s : Stream) : Nat := s.slotSize - 10 - s.optionBytes

/-- The newest segment of a stream's list. -/
def Stream.newest (s : Stream) : Option SegLink := s.segs.getLast?

/-- The newest segment is open (R72): the stream is OPEN, the segment is not suspect and it is not full. One that a failed
program closed counts as full, whether or not it is marked suspect (R48; DEDUCED, log 42). -/
def Tables.newestOpen (t : Tables) (s : Stream) : Option SegLink :=
  match s.newest with
  | none => none
  | some l =>
    if s.state = .opened ∧ (t.seg l.seg).suspect = false ∧ s.closed = false ∧
        s.writePos < slotsPerSegment s.slotSize then some l
    else none

/-- The free slots of R72. -/
def Tables.freeSlots (t : Tables) (s : Stream) : Nat :=
  match t.newestOpen s with
  | none => 0
  | some _ => slotsPerSegment s.slotSize - s.writePos

/-- The link number the next segment linked to a stream gets: 1, or one greater than the newest segment's (R52). What
follows FFFFFFFFh is open in R52 and a free value here (DESIGN CHOICE, log 52). -/
def Stream.nextLink (s : Stream) : Word :=
  match s.newest with
  | none => 1
  | some l => nextLinkNumber l.linkNumber

/-- A stream holds records that the device may evict: WRAP with its hold off (R94, R96). -/
def Stream.mayEvict (s : Stream) : Bool := s.retention == .wrap && !s.hold

/-! ### Unlinking and the catalogue's entries -/

/-- One segment leaves its list: RETIRED if suspect, else DIRTY at the end of the dirty list (R51, R54). -/
def Tables.releaseSeg (t : Tables) (i : Nat) : Tables :=
  let e := t.seg i
  if e.suspect then t.setSeg i { e with state := .retired, suspect := false }
  else { t.setSeg i { e with state := .dirty, suspect := false } with dirty := t.dirty ++ [i] }

/-- Segments leave their lists in the order given (R54). -/
def Tables.release (t : Tables) (is : List Nat) : Tables := is.foldl Tables.releaseSeg t

/-- The segments of every stream, stream by stream, oldest first (R54). -/
def Tables.linkedSegs (t : Tables) : List Nat :=
  t.streams.flatMap (fun s => s.segs.map SegLink.seg)

/-- A stream without the segments named. -/
def Stream.without (s : Stream) (is : List Nat) : Stream :=
  { s with segs := s.segs.filter (fun l => !is.contains l.seg) }

/-- A settings item by its code (R154). -/
def Settings.get (s : Settings) : Nat → Half
  | 1 => s.guardMode
  | 2 => s.sensorSource
  | 3 => s.sensorAddress
  | 4 => s.sensorPointer
  | 5 => s.sensorFormat
  | 6 => s.refreshInterval
  | 7 => s.tickPeriod
  | 8 => s.alertMask
  | 9 => s.poolLowThreshold
  | _ => 0

/-- The image with one item written (R154, R156). -/
def Settings.set (s : Settings) (code : Nat) (v : Half) : Settings :=
  match code with
  | 1 => { s with guardMode := v }
  | 2 => { s with sensorSource := v }
  | 3 => { s with sensorAddress := v }
  | 4 => { s with sensorPointer := v }
  | 5 => { s with sensorFormat := v }
  | 6 => { s with refreshInterval := v }
  | 7 => { s with tickPeriod := v }
  | 8 => { s with alertMask := v }
  | 9 => { s with poolLowThreshold := v }
  | _ => s

/-- The change an entry records (R51, R59, R75), made when the entry is written and again when the mount
applies it. -/
def applyEntry (t : Tables) : Entry → Tables
  | .created id st => t.setStream id st
  | .sealed id next => t.setStream id { t.stream id with state := .sealed, recordedNext := next }
  | .trimmed id oldest is =>
      (t.release is).setStream id { (t.stream id).without is with oldest := oldest }
  | .evicted id oldest is =>
      (t.release is).setStream id { (t.stream id).without is with oldest := oldest }
  | .deleted id => (t.release ((t.stream id).segs.map SegLink.seg)).setStream id Stream.absent
  | .holdSet id => t.setStream id { t.stream id with hold := true }
  | .holdCleared id => t.setStream id { t.stream id with hold := false }
  | .formatted =>
      { t.release t.linkedSegs with streams := List.replicate streamCount Stream.absent }
  | .linked seg id linkNumber firstSeq =>
      (t.setSeg seg { t.seg seg with state := .linked, suspect := false }).setStream id
        { t.stream id with
          segs := (t.stream id).segs ++ [⟨seg, linkNumber, firstSeq⟩]
          recordedNext := firstSeq
          writePos := 0
          closed := false }
  | .suspect seg => t.setSeg seg { t.seg seg with suspect := true }
  | .retired seg _ =>
      { t.setSeg seg { t.seg seg with state := .retired, suspect := false } with
        dirty := t.dirty.filter (· != seg) }
  | .erased seg count =>
      { t.setSeg seg ⟨.free, count, false⟩ with dirty := t.dirty.filter (· != seg) }
  | .setting code v => { t with settings := t.settings.set code v }
  | .unusable k => { t with usable := t.usable.set k false }

/-- The tables as an image records them: no cursor, no write position, no closure, and next as last recorded (R59, R75).
A segment that the mount made DIRTY without an entry stands in the image as it is held, in its place in the dirty list (R59 against
R61; DESIGN CHOICE, log 50). -/
def Tables.recorded (t : Tables) : Tables :=
  { t with streams := t.streams.map (fun s =>
    { s with next := s.recordedNext, writePos := 0, closed := false, cursor := 0 }) }

/-! ### Contexts -/

/-- The class of a request is fixed by its kind (R26). -/
def Kind.isMedia : Kind → Bool
  | .getIdentity | .getSettings | .streamInfo | .poolInfo | .readProfiles | .readEvents | .releaseEvents
  | .clearAlarms | .linkStats | .getTime | .setTime | .arm | .abort => false
  | .read | .readNext | .seek | .sampleTemperature | .setTemperature | .writeProfile | .append | .trim
  | .createStream | .deleteStream | .sealStream | .setHold | .clearHold | .format | .setOption
  | .commitProfiles | .setOwnerLabel | .fixGuard => true

/-- The modifying attribute is fixed by the kind (R26, summary table). -/
def Kind.isModifying : Kind → Bool
  | .append | .trim | .createStream | .deleteStream | .sealStream | .setHold | .clearHold | .format | .setOption
  | .commitProfiles | .setOwnerLabel | .fixGuard => true
  | _ => false

/-- The five armed kinds (section 7.3). -/
def Kind.isArmed : Kind → Bool
  | .deleteStream | .format | .commitProfiles | .setOwnerLabel | .fixGuard => true
  | _ => false

/-- The context is FREE. -/
def Context.isFree : Context → Bool
  | .free => true
  | .held _ _ => false

/-- The context is QUEUED. -/
def Context.isQueued : Context → Bool
  | .held _ .queued => true
  | _ => false

/-- The context is EXECUTING. -/
def Context.isExecuting : Context → Bool
  | .held _ .executing => true
  | _ => false

/-- The context is DONE. -/
def Context.isDone : Context → Bool
  | .held _ (.done _ _ _) => true
  | _ => false

/-- The context is a media context: of media class, QUEUED or EXECUTING (R24). -/
def Context.isMedia : Context → Bool
  | .held r .queued => r.kind.isMedia
  | .held r .executing => r.kind.isMedia
  | _ => false

/-- The context holds this tag (R30). -/
def Context.hasTag (t : Byte) : Context → Bool
  | .held r _ => r.tag == t
  | .free => false

/-- The number of FREE contexts. -/
def freeCount (cs : List Context) : Nat := cs.countP Context.isFree

/-- The number of DONE contexts. -/
def doneCount (cs : List Context) : Nat := cs.countP Context.isDone

/-- The number of media contexts (R24). -/
def mediaCount (cs : List Context) : Nat := cs.countP Context.isMedia

/-- A context is QUEUED or EXECUTING. -/
def anyOutstanding (cs : List Context) : Bool := cs.any (fun c => c.isQueued || c.isExecuting)

/-- The completion number of a DONE context. -/
def Context.completion? : Context → Option Nat
  | .held _ (.done n _ _) => some n
  | _ => none

/-- The acceptance number of a QUEUED context. -/
def Context.queuedNumber? : Context → Option Nat
  | .held r .queued => some r.acceptance
  | _ => none

/-- From position `i` on, the position with the lowest number that `f` gives; `best` is the best so far. -/
def lowestBy (f : Context → Option Nat) : List Context → Nat → Option (Nat × Nat) → Option (Nat × Nat)
  | [], _, best => best
  | c :: rest, i, best =>
    lowestBy f rest (i + 1)
      (match f c with
      | none => best
      | some n =>
        match best with
        | none => some (i, n)
        | some (j, m) => if n < m then some (i, n) else some (j, m))

/-- The DONE context with the lowest completion number (R12, R42). -/
def nextReply (cs : List Context) : Option Nat := (lowestBy Context.completion? cs 0 none).map Prod.fst

/-- The QUEUED context with the lowest acceptance number (R37). -/
def nextQueued (cs : List Context) : Option Nat := (lowestBy Context.queuedNumber? cs 0 none).map Prod.fst

/-- The FREE context with the lowest table position (R32). -/
def firstFree (cs : List Context) : Option Nat := cs.findIdx? Context.isFree

end Sys2Proof.Machine
end

