-- ==== Sys2Proof/Machine/Operands.lean ====
section
/-! DEFINITION. The parameter fields of every request kind: what length and values each form admits, and the
fields it gives. `none` is BAD_PARAM at step 1 (R35, R39). Also the numbers of kinds and settings on the link. -/

namespace Sys2Proof.Machine

/-- The kind codes of the summary table (section 2.2). -/
def Kind.code : Kind → Byte
  | .getIdentity => 0x01 | .getSettings => 0x02 | .streamInfo => 0x03 | .poolInfo => 0x04 | .readProfiles => 0x05
  | .readEvents => 0x06 | .releaseEvents => 0x07 | .clearAlarms => 0x08 | .linkStats => 0x09 | .getTime => 0x0A
  | .setTime => 0x0B | .arm => 0x0C | .abort => 0x0D
  | .read => 0x20 | .readNext => 0x21 | .seek => 0x22 | .sampleTemperature => 0x23 | .setTemperature => 0x24
  | .writeProfile => 0x25
  | .append => 0x30 | .trim => 0x31 | .createStream => 0x32 | .deleteStream => 0x33 | .sealStream => 0x34
  | .setHold => 0x35 | .clearHold => 0x36 | .format => 0x37 | .setOption => 0x38
  | .commitProfiles => 0x3A | .setOwnerLabel => 0x3B | .fixGuard => 0x3C

/-- Every known kind (R26). -/
def allKinds : List Kind :=
  [.getIdentity, .getSettings, .streamInfo, .poolInfo, .readProfiles, .readEvents, .releaseEvents, .clearAlarms,
   .linkStats, .getTime, .setTime, .arm, .abort, .read, .readNext, .seek, .sampleTemperature, .setTemperature,
   .writeProfile, .append, .trim, .createStream, .deleteStream, .sealStream, .setHold, .clearHold, .format,
   .setOption, .commitProfiles, .setOwnerLabel, .fixGuard]

/-- The kind a kind byte names, if it is a known one (R26, R29). -/
def kindOf (b : Byte) : Option Kind := allKinds.find? (fun k => k.code == b)

/-- An empty parameter field. -/
def parseEmpty : List Byte → Option Unit
  | [] => some ()
  | _ => none

/-- A stream id byte, 00h to 0Fh. -/
def parseId (b : Byte) : Option Nat := if b.toNat < streamCount then some b.toNat else none

/-- A field of one stream id (R79, R81, R108, R137, R138). -/
def parseStreamId : List Byte → Option Nat
  | [b] => parseId b
  | _ => none

/-- A stream id and a 32-bit number (R103, R109, R110). -/
def parseIdNumber : List Byte → Option (Nat × Nat)
  | [b, n3, n2, n1, n0] => (parseId b).map (fun id => (id, ofBe [n3, n2, n1, n0]))
  | _ => none

/-- What STREAM_INFO asks for: one stream, or all sixteen (R86). -/
inductive InfoForm where
  | one (id : Nat)
  | all
deriving DecidableEq, Repr

/-- The parameter field of STREAM_INFO (R86). -/
def parseStreamInfo : List Byte → Option InfoForm
  | [b] => if b = 0xFF then some .all else (parseId b).map .one
  | _ => none

/-- The number wanted of READ_EVENTS, 01h to 08h (R182). -/
def parseReadEvents : List Byte → Option Nat
  | [b] => if 1 ≤ b.toNat ∧ b.toNat ≤ 8 then some b.toNat else none
  | _ => none

/-- The count and the flag of RELEASE_EVENTS (R183). -/
def parseReleaseEvents : List Byte → Option (Nat × Bool)
  | [n, f] => if f = 0x00 then some (n.toNat, false) else if f = 0x01 then some (n.toNat, true) else none
  | _ => none

/-- The mask of CLEAR_ALARMS: bits 6 and 7 clear (R179). -/
def parseClearAlarms : List Byte → Option (BitVec 6)
  | [m] => if m.toNat < 64 then some (m.truncate 6) else none
  | _ => none

/-- The count of SET_TIME: any 32-bit value (R165). -/
def parseSetTime : List Byte → Option Word
  | [a, b, c, d] => some (BitVec.ofNat 32 (ofBe [a, b, c, d]))
  | _ => none

/-- The armed kind a target kind code names (R140). -/
def armTarget (b : Byte) : Option Kind :=
  match kindOf b with
  | some k => if k.isArmed then some k else none
  | none => none

/-- The pair an ARM names: the id is checked for DELETE_STREAM and latched as 00h for the others (R140). -/
def parseArm : List Byte → Option ArmPair
  | [k, id] =>
    match armTarget k with
    | some .deleteStream => if id.toNat < streamCount then some ⟨.deleteStream, id⟩ else none
    | some kind => some ⟨kind, 0x00⟩
    | none => none
  | _ => none

/-- What ABORT names: one tag, or every QUEUED context (R43). -/
inductive AbortForm where
  | tag (t : Byte)
  | all
deriving DecidableEq, Repr

/-- The parameter field of ABORT (R43). -/
def parseAbort : List Byte → Option AbortForm
  | [f, t] => if f = 0x00 then some (.tag t) else if f = 0x01 then some .all else none
  | _ => none

/-- The temperature of SET_TEMPERATURE, -220 to +600 (R129). -/
def parseSetTemperature : List Byte → Option Half
  | [h, l] =>
    let v : Half := BitVec.ofNat 16 (ofBe [h, l])
    if plausible v.toInt then some v else none
  | _ => none

/-- A byte that must be 00h or 01h. -/
def parseFlag (b : Byte) : Option Bool := if b = 0x00 then some false else if b = 0x01 then some true else none

/-- The entry of WRITE_PROFILE: index and profile (R126). For entry 0 used is stored as yes. -/
def parseWriteProfile : List Byte → Option (Nat × Profile)
  | [i, u, lh, ll, hh, hl, p, pc, ec] =>
    match parseFlag u, parseFlag p with
    | some used, some permits =>
      let low : Half := BitVec.ofNat 16 (ofBe [lh, ll])
      let high : Half := BitVec.ofNat 16 (ofBe [hh, hl])
      if 7 < i.toNat ∨ 3 < pc.toNat ∨ 3 < ec.toNat then none
      else if i.toNat ≠ 0 ∧ used = true ∧ ¬ low.toInt < high.toInt then none
      else some (i.toNat, ⟨used || i.toNat == 0, low, high, permits, pc.toNat, ec.toNat⟩)
    | _, _ => none
  | _ => none

/-- The largest payload any stream can take (R92). -/
def largestPayload : Nat := 502

/-- The id, host marker and payload of an APPEND, less the test that consults the stream entry (R92). -/
def parseAppend : List Byte → Option (Nat × Bool × List Byte)
  | b :: f :: payload =>
    match parseId b, parseFlag f with
    | some id, some marker => if payload.length ≤ largestPayload then some (id, marker, payload) else none
    | _, _ => none
  | _ => none

/-- The slot size of a slot size code (R77). -/
def slotSizeOf (b : Byte) : Option Nat :=
  if b = 0x00 then some 64 else if b = 0x01 then some 128 else if b = 0x02 then some 256
  else if b = 0x03 then some 512 else none

/-- The retention of a retention byte (R77). -/
def retentionOf (b : Byte) : Option Retention :=
  if b = 0x00 then some .wrap else if b = 0x01 then some .halt else none

/-- A quota is in the range its retention permits (R73, R77). -/
def quotaOk (r : Retention) (q : Nat) : Bool :=
  match r with
  | .wrap => decide (2 ≤ q) && decide (q ≤ 1020)
  | .halt => decide (q ≤ 1020)

/-- The largest start value (R70, R77). -/
def largestStart : Nat := 0xFFFF0000

/-- The stream a creation's fields describe (R77, R78). Its list is empty and its write position, without meaning, 0
(DESIGN CHOICE, log 46). -/
def newStream (slot : Nat) (r : Retention) (q : Nat) (opt : Byte) (start : Nat) (label : Option (List Byte)) : Stream where
  state := .opened
  slotSize := slot
  retention := r
  quota := q
  timeOption := opt.getLsbD 0
  tempOption := opt.getLsbD 1
  label := label
  start := start
  oldest := start
  next := start
  recordedNext := start
  segs := []
  writePos := 0
  closed := false
  hold := false
  cursor := start

/-- The ten bytes of a CREATE_STREAM with the label the length gives (R77). -/
def parseCreateFields (id sc ret qh ql opt : Byte) (start : Nat) (label : Option (List Byte)) : Option (Nat × Stream) :=
  match parseId id, slotSizeOf sc, retentionOf ret with
  | some i, some slot, some r =>
    let q := ofBe [qh, ql]
    if quotaOk r q && decide (opt.toNat < 4) && decide (1 ≤ start) && decide (start ≤ largestStart) then
      some (i, newStream slot r q opt start label)
    else none
  | _, _, _ => none

/-- The parameter field of CREATE_STREAM: 10 bytes, or 18 with a label (R77). -/
def parseCreate : List Byte → Option (Nat × Stream)
  | id :: sc :: ret :: qh :: ql :: opt :: s3 :: s2 :: s1 :: s0 :: label =>
    if label.length = 0 then parseCreateFields id sc ret qh ql opt (ofBe [s3, s2, s1, s0]) none
    else if label.length = 8 then parseCreateFields id sc ret qh ql opt (ofBe [s3, s2, s1, s0]) (some label)
    else none
  | _ => none

/-- A value is permitted for an item of the settings image (R154). -/
def settingPermitted (code v : Nat) : Bool :=
  match code with
  | 1 => decide (v ≤ 1)
  | 2 => decide (v ≤ 2)
  | 3 => decide (0x08 ≤ v) && decide (v ≤ 0x77)
  | 4 => decide (v ≤ 0xFF)
  | 5 => decide (v ≤ 1)
  | 6 => decide (250 ≤ v) && decide (v ≤ 8000) && decide (v % 250 = 0)
  | 7 => decide (v = 1) || decide (v = 10) || decide (v = 100) || decide (v = 1000)
  | 8 => decide (v < 2048)
  | 9 => decide (4 ≤ v) && decide (v ≤ 128)
  | _ => false

/-- The item code and value of SET_OPTION (R155). -/
def parseSetOption : List Byte → Option (Nat × Half)
  | [c, h, l] =>
    let v := ofBe [h, l]
    if settingPermitted c.toNat v then some (c.toNat, BitVec.ofNat 16 v) else none
  | _ => none

/-- The 16 bytes of SET_OWNER_LABEL (R152). -/
def parseLabel (ps : List Byte) : Option (List Byte) := if ps.length = 16 then some ps else none

end Sys2Proof.Machine
end

