-- ==== Sys2Proof/Machine/Thermal.lean ====
section
/-! DEFINITION. The Thermal Unit: due test, attempts and their outcomes, fallback, profile selection
(R112 to R125), and the guard (R130, R131). Everything here acts on a committed state or on a request's
working copy of it, and gives the events it raises in order. -/

namespace Sys2Proof.Machine

/-- An event with its details, stamped (R180). -/
def raised (kind : EventKind) (st : Stamp) (a b : Nat) : Raised :=
  ⟨kind, st, byteOf a, BitVec.ofNat 32 b⟩

/-- The configured source (R112, R154). -/
def Settings.source (s : Settings) : Source :=
  if s.sensorSource = 0x0000 then .external else if s.sensorSource = 0x0001 then .internal else .host

/-- The active source: the configured one, except INTERNAL while fallback is set (R112). -/
def Committed.activeSource (c : Committed) : Source :=
  if c.sample.fallback then .internal else c.tables.settings.source

/-- The sample is due (R113). -/
def Committed.due (c : Committed) : Bool :=
  c.tables.settings.source != .host &&
    (c.sample.value.isNone || c.sample.dueMark || decide (c.tables.settings.refreshInterval.toNat < c.sample.age))

/-- One entry of the volatile profile table. -/
def Committed.profile (c : Committed) (i : Nat) : Profile := c.profiles.getD i ⟨false, 0, 0, false, 0, 0⟩

/-- The active entry permits writes (R123). -/
def Committed.permits (c : Committed) : Bool := (c.profile c.activeProfile).permits

/-- The timing classes an operation starts with (R47, R125). -/
def Committed.programTiming (c : Committed) : Nat := (c.profile c.activeProfile).programClass
/-- The erase class of the active profile (R47, R125). -/
def Committed.eraseTiming (c : Committed) : Nat := (c.profile c.activeProfile).eraseClass

/-- A used entry's range holds the value (R124). -/
def Profile.holds (p : Profile) (t : Half) : Bool :=
  p.used && decide (p.low.toInt ≤ t.toInt) && decide (t.toInt < p.high.toInt)

/-- The index selection gives: the highest of entries 1 to 7 that match, or 0 (R124). -/
def selectIndex (ps : List Profile) : Option Half → Nat
  | none => 0
  | some t => ([1, 2, 3, 4, 5, 6, 7].filter (fun i => (ps.getD i ⟨false, 0, 0, false, 0, 0⟩).holds t)).foldl max 0

/-- Selection of the profile, with PROFILE_CHANGED when the index changes (R124). -/
def selectProfile (c : Committed) (st : Stamp) : Committed × List Raised :=
  let i := selectIndex c.profiles c.sample.value
  if i = c.activeProfile then (c, [])
  else ({ c with activeProfile := i },
    [raised .profileChanged st (c.activeProfile * 16 + i) (c.sample.value.getD noSample).toNat])

/-- The sample after a successful attempt (R119). -/
def Sample.succeeded (s : Sample) (v : Half) (src : Source) : Sample :=
  { s with value := some v, source := some src, age := 0, stale := false, dueMark := false, failures := 0 }

/-- A successful attempt is applied and the profile selected if the value changed (R119). -/
def attemptSucceeds (c : Committed) (st : Stamp) (v : Half) (src : Source) : Committed × List Raised :=
  let c' := { c with sample := c.sample.succeeded v src }
  if c.sample.value = some v then (c', []) else selectProfile c' st

/-- A die temperature in thousandths of a degree, rounded to the nearest whole degree (R118). Exactly
between two degrees the direction is the device's own (log 16). -/
def nearestDegree (milli : Int) : Int :=
  if milli % 1000 = 500 then (if Config.dieTieRoundsUp milli then milli / 1000 + 1 else milli / 1000)
  else (milli + 500) / 1000

/-- The value of an internal attempt: a whole degree in quarter degrees, clamped (R118). -/
def dieValue (milli : Int) : Half :=
  tempOf (max (-220) (min 600 (4 * nearestDegree milli)))

/-- An internal attempt, which always succeeds (R118). -/
def internalAttempt (c : Committed) (st : Stamp) (env : Env) : Committed × List Raised :=
  attemptSucceeds c st (dieValue env.die) .internal

/-- The reason codes of R117. -/
def SensorReason.code : SensorReason → Nat
  | .addressNack => 1
  | .dataNack => 2
  | .busStuck => 3
  | .stretchTimeout => 4
  | .implausible => 5

/-- The sample after a failed external attempt: stale unless absent, the age left to run (R119). -/
def Sample.failed (s : Sample) : Sample :=
  { s with stale := s.value.isSome, dueMark := false, failures := s.failures + 1 }

/-- Fallback: the flag, an internal attempt, SENSOR_FALLBACK, then selection (R120). -/
def enterFallback (c : Committed) (st : Stamp) (reason : SensorReason) (env : Env) : Committed × List Raised :=
  let v := dieValue env.die
  let c' := { c with sample := { c.sample.succeeded v .internal with fallback := true } }
  let (c'', evs) := selectProfile c' st
  (c'', raised .sensorFallback st reason.code v.toNat :: evs)

/-- A failed external attempt: SENSOR_FAULT, and fallback at the third failure (R119, R120). -/
def attemptFails (c : Committed) (st : Stamp) (reason : SensorReason) (raw : Nat) (env : Env) :
    Committed × List Raised :=
  let c' := { c with sample := c.sample.failed }
  let fault := raised .sensorFault st reason.code (c'.sample.failures * 65536 + raw)
  if 3 ≤ c'.sample.failures then
    let (c'', evs) := enterFallback c' st reason env
    (c'', fault :: evs)
  else (c', [fault])

/-- The value of a sensor word in the configured format (R117). -/
def convertWord (format : Half) (w : Half) : Int :=
  if format = 0x0000 then (w.toInt / 16) / 4 else w.toInt

/-- How an external attempt ends (R115, R117). -/
inductive AttemptEnd where
  | value (v : Half)
  | failure (reason : SensorReason) (raw : Nat)
deriving DecidableEq, Repr

/-- The end of one sample transaction: the bus check, the acknowledges in order, then the converted value
(R115, R116, R117). -/
def attemptEnd (s : Settings) (run : BusRun) : AttemptEnd :=
  if 10 < run.sdaHighAfter then .failure .busStuck 0
  else if !run.ackWrite then .failure .addressNack 0
  else if !run.ackPointer then .failure .dataNack 0
  else if !run.ackRead then .failure .addressNack 0
  else
    let v := convertWord s.sensorFormat run.word
    if plausible v then .value (tempOf v) else .failure .implausible run.word.toNat

/-- What the THU does on the bus for the bus check and recovery: nothing with TSDA high, else pulses of TSCL
up to nine, and a STOP (R116). -/
def recoveryActs (highAfter : Nat) : List BusAct :=
  if highAfter = 0 then [] else List.replicate (min highAfter 9) .pulse ++ [.stop]

/-- The address byte with its direction bit (R115). -/
def addressByte (s : Settings) (reading : Bool) : Byte :=
  byteOf (s.sensorAddress.toNat * 2 + (if reading then 1 else 0))

/-- What the THU does on the bus in one sample transaction, in order (R115, R116, R117, figure 6-1). -/
def busActs (s : Settings) (run : BusRun) : List BusAct :=
  let pointer := byteOf s.sensorPointer.toNat
  let hi := byteOf (run.word.toNat / 256)
  let lo := byteOf run.word.toNat
  recoveryActs run.sdaHighAfter ++
  (if 10 < run.sdaHighAfter then []
   else if !run.ackWrite then [.start, .sent (addressByte s false) false, .stop]
   else if !run.ackPointer then [.start, .sent (addressByte s false) true, .sent pointer false, .stop]
   else if !run.ackRead then
     [.start, .sent (addressByte s false) true, .sent pointer true, .repeatedStart,
      .sent (addressByte s true) false, .stop]
   else
     [.start, .sent (addressByte s false) true, .sent pointer true, .repeatedStart,
      .sent (addressByte s true) true, .received hi true, .received lo false, .stop]) ++ [.release]

/-- An external attempt's end is applied (R119, R120). -/
def applyAttempt (c : Committed) (st : Stamp) (e : AttemptEnd) (env : Env) : Committed × List Raised :=
  match e with
  | .value v => attemptSucceeds c st v .external
  | .failure reason raw => attemptFails c st reason raw env

/-- A millisecond of the sample's age (R112); an absent value's age is held at 0 (log 27). -/
def Sample.aged (s : Sample) : Sample :=
  if s.value.isNone then s else { s with age := if s.age < maxAge then s.age + 1 else maxAge }

/-! ### The guard -/

/-- Either guard-fix cell reads blown (R130, R143). -/
def FuseCopies.guardFixed (f : FuseCopies) : Bool := f.guardA == .blown || f.guardB == .blown

/-- The guard is engaged: fixed, or mode PIN with GUARD# low (R130, R131). -/
def Committed.guardEngaged (c : Committed) (guardHigh : Bool) : Bool :=
  c.fuse.guardFixed || (c.tables.settings.guardMode == 0x0001 && !guardHigh)

end Sys2Proof.Machine
end

