-- ==== Sys2Proof/Machine/Flags.lean ====
section
/-! DEFINITION. Codes on the link, alarms, the event list, ALERT# and the status word (Chapter 10). -/

namespace Sys2Proof.Machine

/-- The reply status codes of R185. -/
def Status.code : Status → Byte
  | .ok => 0x00 | .clamped => 0x01 | .cursorSkipped => 0x02
  | .badParam => 0x10 | .streamAbsent => 0x11 | .streamExists => 0x12 | .streamSealed => 0x13 | .streamFull => 0x14
  | .poolEmpty => 0x15 | .notRetained => 0x16 | .notYet => 0x17 | .seqExhausted => 0x18 | .wrongSource => 0x19
  | .sensorFailed => 0x1A
  | .guarded => 0x20 | .held => 0x21 | .notArmed => 0x22 | .tempInhibit => 0x23 | .readOnly => 0x24
  | .damagedData => 0x30 | .mediaFault => 0x31 | .fuseFault => 0x32 | .noBank => 0x33 | .fuseSpent => 0x34
  | .aborted => 0x40

/-- The intake codes of R27. -/
def Intake.code : Intake → Byte
  | .accepted => 0x00 | .notReady => 0x01 | .frameError => 0x02 | .unknownKind => 0x03 | .tagInUse => 0x04
  | .noContext => 0x05 | .queueFull => 0x06 | .deviceFault => 0x07

/-- The event kind codes of R180. -/
def EventKind.code : EventKind → Nat
  | .mounted => 1 | .tornRecord => 2 | .segmentRetired => 3 | .catalogueDegraded => 4 | .poolLow => 5
  | .poolEmpty => 6 | .wrapEvict => 7 | .sensorFault => 8 | .sensorFallback => 9 | .profileChanged => 10
  | .fuseFault => 11

/-- The reason codes of R57. -/
def RetireReason.code : RetireReason → Nat
  | .eraseVerify => 1 | .eraseWatchdog => 2 | .descriptorFailed => 3 | .suspectUnlinked => 4

/-- The device state codes of R158. -/
def DevState.code : DevState → Nat
  | .mounting => 0 | .running => 1 | .resetting => 2 | .deepSleep => 3 | .faulted => 4

/-- The bank state codes of R146. -/
def BankState.code : BankState → Byte
  | .fresh => 0x00 | .aUsed => 0x01 | .bUsed => 0x02

/-- The origin codes of R147. -/
def Origin.code : Origin → Byte
  | .factory => 0x00 | .bankA => 0x01 | .bankB => 0x02

/-- The owner label codes of R151. -/
def LabelState.code : LabelState → Byte
  | .absent => 0x00 | .present => 0x01 | .damaged => 0x02

/-- The stream state codes of R86. -/
def StreamState.code : StreamState → Byte
  | .absent => 0x00 | .opened => 0x01 | .sealed => 0x02

/-- The retention codes of R77. -/
def Retention.code : Retention → Byte
  | .wrap => 0x00 | .halt => 0x01

/-- The source codes of R128. -/
def Source.code : Source → Byte
  | .external => 0x00 | .internal => 0x01 | .host => 0x02

/-! ### Alarms (R178) -/

/-- MEDIA_FAULT_SEEN, bit 0. -/
def alarmMediaFault : BitVec 6 := 1
/-- SEGMENT_RETIRED_SEEN, bit 1. -/
def alarmSegmentRetired : BitVec 6 := 2
/-- FUSE_FAULT_SEEN, bit 2. -/
def alarmFuseFault : BitVec 6 := 4
/-- LINK_ERROR_SEEN, bit 3. -/
def alarmLinkError : BitVec 6 := 8
/-- CATALOGUE_DEGRADED, bit 4. -/
def alarmCatalogueDegraded : BitVec 6 := 16
/-- TORN_FOUND, bit 5. -/
def alarmTornFound : BitVec 6 := 32

/-- Latch alarms (R178). -/
def State.latch (s : State) (a : BitVec 6) : State := { s with alarms := s.alarms ||| a }

/-! ### Events (R180, R181) -/

/-- The tick counter and TIME_UNSET now. -/
def State.stamp (s : State) : Stamp := ⟨s.tick, s.timeUnset⟩

/-- Record one event, or drop it when the list holds 16 (R181). -/
def State.record (s : State) (e : Raised) : State :=
  if s.events.length < maxEvents then
    { s with events := s.events ++ [⟨s.nextEvent, e⟩], nextEvent := s.nextEvent + 1 }
  else { s with overflow := satInc s.overflow }

/-- Record events in the order they were raised, each decided independently (R181, R186). -/
def State.recordAll (s : State) (es : List Raised) : State := es.foldl State.record s

/-! ### The pool level (R66) -/

/-- The comparison of the available count with the threshold (R66). -/
def State.comparePool (s : State) : State :=
  let threshold := s.committed.tables.settings.poolLowThreshold.toNat
  let available := s.committed.tables.available
  if available < threshold then
    let s' := { s with poolLow := true }
    if s.poolLowArmed then
      { s' with poolLowArmed := false }.record (raised .poolLow s.stamp threshold available)
    else s'
  else { s with poolLow := false, poolLowArmed := true }

/-! ### ALERT# (R184) -/

/-- An event's kind is enabled in ALERT_MASK: the bit is the kind's code less one (R154, R180). -/
def alertEnabled (mask : Half) (e : Event) : Bool := mask.getLsbD (e.what.kind.code - 1)

/-- The level of ALERT#: low exactly in RUNNING or FAULTED, with RESET# high, while a context is DONE or an
enabled event is listed (R184). -/
def State.alertLevel (s : State) : Bool :=
  !s.resetLow && (s.dev == .running || s.dev == .faulted) &&
    (s.contexts.any Context.isDone || s.events.any (alertEnabled s.committed.tables.settings.alertMask))

/-- The Supervisor drives ALERT# in the same step as whatever changes it (R184). -/
def State.settle (s : State) : State := { s with alertLow := s.alertLevel }

/-! ### The status word (R176, R177) -/

/-- One bit or field of the status word. -/
def field (b : Bool) (at' : Nat) : Nat := if b then 2 ^ at' else 0

/-- The index that the status word shows: the active profile, but in FAULTED, and in RESETTING after it, the one the mount
selected, whatever a FORMAT has selected since (R177, log 49). -/
def State.shownProfile (s : State) : Nat :=
  match s.dev with
  | .faulted | .resetting => s.faultedProfile.getD s.committed.activeProfile
  | .mounting | .running | .deepSleep => s.committed.activeProfile

/-- The status word with GUARD# as read at the lead point and the reset-arm flag as sampled there (R176). The alarms are
shown as they stand, a frame error of RESETTING or MOUNTING among them (R177; DEDUCED, log 55). -/
def State.statusWord (s : State) (guardHigh armSampled : Bool) : Word :=
  BitVec.ofNat 32
    (s.dev.code * 2 ^ 29 + field (s.contexts.any Context.isExecuting) 28
      + field (s.committed.guardEngaged guardHigh) 27 + field guardHigh 26 + field armSampled 25
      + field s.armLatch.isSome 24 + freeCount s.contexts * 2 ^ 20 + doneCount s.contexts * 2 ^ 16
      + field (!s.events.isEmpty) 15 + field (s.overflow != 0) 14 + field s.timeUnset 13
      + field s.committed.sample.fallback 12 + field (!(s.committed.profile s.shownProfile).permits) 11
      + s.shownProfile * 2 ^ 8 + field s.poolLow 7 + field s.committed.cat.readOnly 6
      + s.alarms.toNat)

end Sys2Proof.Machine
end

