-- ==== Sys2Proof/Machine/Catalogue.lean ====
section
/-! DEFINITION. Work in progress: how a task's effects are committed (R36, R41, R49), and the catalogue writer
with compaction (R60 to R63). -/

namespace Sys2Proof.Machine

/-! ### Tasks -/

/-- Events wait with the task that raised them (R181). -/
def Task.raise (t : Task) (es : List Raised) : Task := { t with events := t.events ++ es }

/-- Alarms are latched when the task's effects are committed (R178). -/
def Task.latch (t : Task) (a : BitVec 6) : Task := { t with alarms := t.alarms ||| a }

/-- The task with its working copy of the tables replaced. -/
def Task.setTables (t : Task) (tb : Tables) : Task := { t with work := { t.work with tables := tb } }

/-- The task with its catalogue position replaced. -/
def Task.setCat (t : Task) (c : CatPosition) : Task := { t with work := { t.work with cat := c } }

/-- The task with its working copy replaced and events added. -/
def Task.absorb (t : Task) (r : Committed × List Raised) : Task :=
  { t with work := r.1, events := t.events ++ r.2 }

/-- An operation starts for a task. -/
def State.begin (s : State) (t : Task) (op : Operation) (stage : Stage) : State :=
  { s with job := some ⟨t, op, stage⟩ }

/-- A task's effects become committed in one step: its working copy, alarms and waiting events (R36, R41, R49,
R178, R181), the tick period of the settings (R156), RUNNING after a FORMAT in FAULTED has built a catalogue
(R85), and the pool level (R66). A profile selected meanwhile is noted for a paused reclaim (R58, R125). What a FORMAT
in FAULTED selected at step 6 is committed even if it is refused (R40); the status word shows the mount's selection until
FAULTED is left (R177; DEDUCED, log 49). -/
def State.commit (s : State) (t : Task) : State :=
  let s' := { s with
    committed := t.work
    job := none
    alarms := s.alarms ||| t.alarms
    tickPeriod :=
      if t.work.tables.settings.tickPeriod = s.committed.tables.settings.tickPeriod then s.tickPeriod
      else t.work.tables.settings.tickPeriod.toNat
    dev := if s.dev = DevState.faulted ∧ t.work.cat.active.isSome = true then .running else s.dev
    faultedProfile :=
      if s.dev = DevState.faulted ∧ t.work.cat.active.isSome = true then none else s.faultedProfile
    reconsider := s.reconsider ||
      (s.reclaimPaused && (t.work.activeProfile != s.committed.activeProfile ||
        (t.work.permits && !s.committed.permits))) }
  let s'' := s'.recordAll t.events
  if s''.dev = DevState.faulted then s'' else s''.comparePool

/-- A context enters DONE with a reply and the next completion number (R25, R41). -/
def State.finish (s : State) (i : Nat) (r : Request) (st : Status) (payload : List Byte) : State :=
  { s with contexts := s.contexts.set i (.held r (.done s.nextCompletion st payload))
           nextCompletion := s.nextCompletion + 1 }

/-- The executing request completes (R41). -/
def State.complete (s : State) (t : Task) (st : Status) (payload : List Byte) : State :=
  match t.owner with
  | .request i r => (s.commit t).finish i r st payload
  | .background => s.commit t

/-- A background operation ends, leaving reclaim paused or not (R58). A profile that its own refresh selected brings on
no further reconsideration (DESIGN CHOICE, log 47). -/
def State.endBackground (s : State) (t : Task) (paused : Bool) : State :=
  { s.commit t with reclaimPaused := paused, reconsider := false }

/-! ### What an entry brings with it -/

/-- The suspect ones among segments that leave their lists, in dirty-list order (R57). -/
def Tables.suspects (t : Tables) (is : List Nat) : List Nat := is.filter (fun i => (t.seg i).suspect)

/-- One SEGMENT_RETIRED event for each segment (R57). -/
def retiredEvents (st : Stamp) (reason : RetireReason) (is : List Nat) : List Raised :=
  is.map (fun i => raised .segmentRetired st reason.code i)

/-- Two runs of events raised by one entry; the spec orders neither first (log 18). -/
def eitherOrder (evict retire : List Raised) : List Raised :=
  match retire with
  | [] => evict
  | _ => if Config.evictEventFirst then evict ++ retire else retire ++ evict

/-- Writing this entry brings the usable count to 1 (R62). -/
def degrades (t : Tables) (k : Nat) : Bool :=
  let after := (applyEntry t (.unusable k)).usableCount
  after == 1 && t.usableCount != 1

/-- The events raised when an entry is written (R57, R62, R95). -/
def entryEvents (t : Tables) (st : Stamp) : Entry → List Raised
  | .trimmed _ _ is => retiredEvents st .suspectUnlinked (t.suspects is)
  | .evicted id oldest is =>
      eitherOrder [raised .wrapEvict st id oldest] (retiredEvents st .suspectUnlinked (t.suspects is))
  | .deleted id => retiredEvents st .suspectUnlinked (t.suspects ((t.stream id).segs.map SegLink.seg))
  | .formatted => retiredEvents st .suspectUnlinked (t.suspects t.linkedSegs)
  | .retired seg reason => retiredEvents st reason [seg]
  | .unusable k => if degrades t k then [raised .catalogueDegraded st 1 k] else []
  | .created _ _ | .sealed _ _ | .holdSet _ | .holdCleared _ | .linked _ _ _ _ | .suspect _ | .erased _ _
  | .setting _ _ => []

/-- The alarms latched when an entry is written (R57, R62). -/
def entryAlarms (t : Tables) : Entry → BitVec 6
  | .unusable k => if degrades t k then alarmCatalogueDegraded else 0
  | e => if entryEvents t ⟨0, false⟩ e |>.any (fun r => r.kind == .segmentRetired) then alarmSegmentRetired else 0

/-- An entry has been written: a position is used and its change is part of the device's state (R60). -/
def Task.wrote (t : Task) (st : Stamp) (e : Entry) : Task :=
  (((t.setCat { t.work.cat with fill := t.work.cat.fill + 1 }).setTables (applyEntry t.work.tables e)).raise
    (entryEvents t.work.tables st e)).latch (entryAlarms t.work.tables e)

/-- A position is spent by a failed program (R60). -/
def Task.spent (t : Task) : Task :=
  (t.setCat { t.work.cat with fill := t.work.cat.fill + 1 }).latch alarmMediaFault

/-! ### The writer -/

/-- One catalogue segment of the array. -/
def catSegAt (segs : List CatSegment) (k : Nat) : CatSegment := segs.getD k CatSegment.erased

/-- An entry that still has to be written makes this catalogue segment unusable (R62, log 21). -/
def pendingUnusable (queue : List CatAction) (k : Nat) : Bool := queue.contains (.write (.unusable k))

/-- The compaction targets in the order they are tried (R61; a fresh device starts with 0, R64): those that are usable
and that no entry still to be written makes unusable (R62). -/
def compactionTargets (usable : List Bool) (queue : List CatAction) (active : Option Nat) : List Nat :=
  (match active with
    | none => [0, 1, 2, 3]
    | some k => [(k + 1) % 4, (k + 2) % 4, (k + 3) % 4]).filter (fun k => usable.getD k false && !pendingUnusable queue k)

/-- What the writer does next: an operation, the end for want of a position (R60), or the end of its work. -/
inductive WriterNext where
  | operate (t : Task) (op : Operation) (w : CatWork)
  | full (t : Task)
  | done (t : Task)
deriving DecidableEq, Repr

/-- The program of one page of a target: the generation, one greater (R59, R61; past FFFFFFFFh log 40), or an image page.
The image records the segment table as the device holds it, the segments the mount made DIRTY among it (DESIGN CHOICE,
log 50); the sixteen pages in this order are the model's (DEDUCED, log 11). -/
def pageOperation (t : Task) (k page : Nat) : Operation :=
  .catPage k page (nextGeneration t.work.cat.generation) t.work.tables.recorded t.work.programTiming

/-- The first operation on a target: an erase unless it reads fully erased (R61). -/
def targetOperation (segs : List CatSegment) (t : Task) (k : Nat) : Operation × TargetStep :=
  if (catSegAt segs k).readsErased then (pageOperation t k 0, .page 0)
  else (.catErase k t.work.eraseTiming, .erasing)

/-- Program an entry into the lowest unused position, if there is one (R60). -/
def programEntry (t : Task) (e : Entry) (rest : List CatAction) (after : After) : WriterNext :=
  match t.work.cat.active with
  | none => .full t
  | some k =>
    if t.work.cat.fill < cataloguePositions then
      .operate t (.catEntry k t.work.cat.fill e t.work.programTiming) ⟨.write e :: rest, none, after⟩
    else .full t

/-- Fewer than 8 positions of the active segment remain, or there is no active segment (R60, R64). -/
def CatPosition.needsCompaction (c : CatPosition) : Bool :=
  !c.readOnly && (c.active.isNone || decide (cataloguePositions - c.fill < 8))

/-- Once an eviction's entry is written the APPEND counts the records evicted, whatever follows (R95, R101). -/
def After.counted (after : After) (e : Entry) : After :=
  match e, after with
  | .evicted _ _ _, .allocate a gain => .allocate { a with evicted := a.evicted + gain } 0
  | _, _ => after

/-- What follows the writer's work once the operation in hand has ended (R60, R101). -/
def CatWork.afterOperation (w : CatWork) (ok : Bool) : After :=
  match w.compaction, w.queue with
  | none, .write e :: _ => if ok then w.after.counted e else w.after
  | _, _ => w.after

/-- Compaction has found no usable target: the read-only condition (R63). -/
def Task.enterReadOnly (t : Task) : Task := t.setCat { t.work.cat with readOnly := true }

/-- Write one entry from step 1 of R60. -/
def writeHead (segs : List CatSegment) (t : Task) (e : Entry) (rest : List CatAction) (after : After) : WriterNext :=
  if t.work.cat.needsCompaction then
    match compactionTargets t.work.tables.usable (.write e :: rest) t.work.cat.active with
    | [] => programEntry t.enterReadOnly e rest after
    | k :: ks =>
      let o := targetOperation segs t k
      .operate t o.1 ⟨.write e :: rest, some ⟨k :: ks, [], o.2⟩, after⟩
  else programEntry t e rest after

/-- Go on with the writer's queue. The former active segment is erased unless it is erased already. -/
def writeNext (segs : List CatSegment) (t : Task) (after : After) : List CatAction → WriterNext
  | [] => .done t
  | .eraseFormer k :: rest =>
    if t.work.cat.active = some k ∨ (catSegAt segs k).readsErased = true then writeNext segs t after rest
    else .operate t (.catErase k t.work.eraseTiming) ⟨.eraseFormer k :: rest, none, after⟩
  | .write e :: rest => writeHead segs t e rest after

/-- The entries that record targets made unusable on the way (R61, R62). -/
def unusableWrites (bad : List Nat) : List CatAction := bad.map (fun k => .write (.unusable k))

/-- The queue once a target's validity mark is programmed: the entry that triggered the compaction, those of
the bad targets, then the erase of the former active segment (R61). -/
def queueAfterCompaction (former : Option Nat) (bad : List Nat) : List CatAction → List CatAction
  | [] => []
  | a :: rest => a :: unusableWrites bad ++ (match former with
    | none => []
    | some k => [.eraseFormer k]) ++ rest

/-- The next target, or the read-only condition when none is left (R61, R63). -/
def nextTarget (segs : List CatSegment) (t : Task) (w : CatWork) (targets bad : List Nat) : WriterNext :=
  match targets with
  | k :: ks =>
    let o := targetOperation segs t k
    .operate t o.1 { w with compaction := some ⟨k :: ks, bad, o.2⟩ }
  | [] =>
    match w.queue with
    | [] => .done t.enterReadOnly
    | a :: rest => writeNext segs t.enterReadOnly w.after (a :: unusableWrites bad ++ rest)

/-- An operation of a compaction has ended (R61). -/
def compactionEnds (segs : List CatSegment) (t : Task) (w : CatWork) (c : Compaction) (ok : Bool) : WriterNext :=
  match c.targets with
  | [] => .done t
  | k :: ks =>
    if ok then
      match c.step with
      | .erasing => .operate t (pageOperation t k 0) { w with compaction := some { c with step := .page 0 } }
      | .page n =>
        if n < lastImagePage then
          .operate t (pageOperation t k (n + 1)) { w with compaction := some { c with step := .page (n + 1) } }
        else .operate t (.catMark k t.work.programTiming) { w with compaction := some { c with step := .marking } }
      | .marking =>
        writeNext segs
          (t.setCat { t.work.cat with active := some k, fill := 0, generation := nextGeneration t.work.cat.generation })
          w.after (queueAfterCompaction t.work.cat.active c.bad w.queue)
    else nextTarget segs (t.latch alarmMediaFault) w ks (c.bad ++ [k])

/-- An operation of the writer has ended (R60, R61, R62). -/
def writerEnds (segs : List CatSegment) (st : Stamp) (t : Task) (w : CatWork) (ok : Bool) : WriterNext :=
  match w.compaction with
  | some c => compactionEnds segs t w c ok
  | none =>
    match w.queue with
    | [] => .done t
    | .write e :: rest =>
      if ok then writeNext segs (t.wrote st e) (w.afterOperation ok) rest
      else writeHead segs t.spent e rest w.after
    | .eraseFormer k :: rest =>
      if ok then writeNext segs t w.after rest
      else writeNext segs (t.latch alarmMediaFault) w.after (.write (.unusable k) :: rest)

/-- The 8-byte payload of an APPEND refused STREAM_FULL, POOL_EMPTY or MEDIA_FAULT (R101). -/
def appendRefusal (t : Task) (a : AppendData) : List Byte :=
  be32 a.evicted ++ be32 (t.work.tables.stream a.id).oldest

/-- The APPEND that waits for the writer, if it is one. -/
def appendOf : After → Option AppendData
  | .allocate a _ | .record a | .recorded a _ _ | .retry a | .giveUp a => some a
  | .reply _ | .formatReply _ | .option _ _ | .backgroundEnd => none

/-- An entry cannot be written: the request completes MEDIA_FAULT at once, or the background operation ends
(R60, R99, R101). A segment whose suspect entry this is stays unmarked, and closed (R48; DEDUCED, log 42). Where the
request's own entry is written already and the one that finds no position only makes a target unusable, the change stands
and the request completes MEDIA_FAULT all the same (R60 and R63 against the OK of R78, R79, R82, R83, R156; DEDUCED, log 51). After a SENSOR_SOURCE so written the new
source is committed, while fallback, the failures and the due mark stay as they were (R121, R156; DEDUCED, log 53). -/
def State.entryUnwritten (s : State) (t : Task) (after : After) : State :=
  match t.owner with
  | .background => s.endBackground t false
  | .request _ _ =>
    match appendOf after with
    | some a => s.complete t .mediaFault (appendRefusal t a)
    | none => s.complete t .mediaFault []

/-- Start writing one entry; `after` follows once it, and all it brings with it, is written (R60). -/
def State.writeEntry (s : State) (t : Task) (e : Entry) (after : After) : State :=
  match writeHead s.catSegs t e [] after with
  | .operate t' op w => s.begin t' op (.catalogue w)
  | .full t' => s.entryUnwritten t' after
  | .done t' => s.entryUnwritten t' after

end Sys2Proof.Machine
end

