-- ==== Sys2Proof/Machine/Journal.lean ====
section
/-! DEFINITION. The Journal Engine's work on records and streams: the stored record, APPEND with allocation,
forced reclaim, eviction and retry (Chapter 5, R52, R53, R56), reading, the cursor, trimming, and the
stream lifecycle (Chapter 4). -/

namespace Sys2Proof.Machine

/-! ### The stored record (R88, R89) -/

/-- Offsets 0 to 6 of a record: sequence number, payload length, flags (R88). -/
def recordHead (seq len : Nat) (flags : Byte) : List Byte := be32 seq ++ be16 len ++ [flags]

/-- A record from offset 8 on, less padding and check: the optional fields and the payload (R88). -/
def recordTail (st : Stream) (a : AppendData) : List Byte :=
  (if st.timeOption then be32 a.stamp.tick.toNat else []) ++ (if st.tempOption then be16 a.temperature.toNat else [])
    ++ a.payload

/-- The cells of the body program: everything but the commit mark and the padding (R90). -/
def bodyCells (st : Stream) (a : AppendData) (base : Nat) : List Host.Cell :=
  let head := recordHead st.next a.payload.length a.flags
  let tail := recordTail st a
  cellsAt base head ++ cellsAt (base + 8) tail ++ cellsAt (base + st.slotSize - 2) (checkBytes (head ++ tail))

/-- The cell of the mark program (R90). -/
def markCell (base : Nat) : List Host.Cell := [(base + markOffset, commitMark)]

/-- The flags byte of R89. -/
def recordFlags (st : Stream) (s : Stamp) (sample : Sample) (profile : Nat) (marker : Bool) : Byte :=
  byteOf (field st.timeOption 0 + field st.tempOption 1 + field s.unset 2
    + field (sample.value.isNone || sample.stale) 3 + profile * 16 + field marker 7)

/-- The values an APPEND captures on passing step 6 (R89). -/
def captureAppend (c : Committed) (st : Stamp) (id : Nat) (marker : Bool) (payload : List Byte) : AppendData where
  id := id
  payload := payload
  stamp := st
  temperature := c.sample.value.getD noSample
  flags := recordFlags (c.tables.stream id) st c.sample c.activeProfile marker
  profile := c.activeProfile
  evicted := 0
  secondAttempt := false

/-- The descriptor of a data segment: the five fields of R52, which stand one after another from the segment's first
byte (DESIGN CHOICE: R52 gives no offsets, log 41). -/
def descriptorBytes (id : Nat) (linkNumber : Word) (slotSize firstSeq : Nat) : List Byte :=
  let fields := [byteOf id] ++ be32 linkNumber.toNat ++ be16 slotSize ++ be32 firstSeq
  fields ++ checkBytes fields

/-! ### Appending -/

/-- The stream an APPEND is for, in its working copy. -/
def Task.streamOf (t : Task) (a : AppendData) : Stream := t.work.tables.stream a.id

/-- An APPEND completes without a record (R101). -/
def State.appendFails (s : State) (t : Task) (a : AppendData) (st : Status) : State :=
  s.complete t st (appendRefusal t a)

/-- The body program of the record at the write position of a segment (R90, R98). -/
def State.startBody (s : State) (t : Task) (a : AppendData) (seg : Nat) : State :=
  let st := t.streamOf a
  s.begin t (.program (bodyCells st a (slotBase seg st.slotSize st.writePos)) t.work.programTiming)
    (.body a seg st.writePos)

/-- Eviction of the oldest segment by one entry; then allocation (R95). -/
def State.evict (s : State) (t : Task) (a : AppendData) : State :=
  let st := t.streamOf a
  match st.segs with
  | oldest :: second :: _ =>
    let newOldest := max st.oldest second.firstSeq
    s.writeEntry t (.evicted a.id newOldest [oldest.seg]) (.allocate a (newOldest - st.oldest))
  | _ => s.appendFails t a .poolEmpty

/-- POOL_EMPTY, with its event (R96). -/
def State.poolEmpty (s : State) (t : Task) (a : AppendData) : State :=
  s.appendFails (t.raise [raised .poolEmpty s.stamp a.id (t.streamOf a).next]) a .poolEmpty

/-- Allocation: the lowest-worn FREE segment gets its descriptor; with an empty pool the head of the dirty list
is erased; with neither, self-eviction or POOL_EMPTY (R53, R56, R96). -/
def State.allocate (s : State) (t : Task) (a : AppendData) : State :=
  let st := t.streamOf a
  match t.work.tables.chooseFree with
  | some seg =>
    s.begin t (.program (cellsAt (segBase seg) (descriptorBytes a.id st.nextLink st.slotSize st.next))
      t.work.programTiming) (.descriptor a seg)
  | none =>
    match t.work.tables.dirty with
    | d :: _ => s.begin t (.erase d t.work.eraseTiming) (.forcedErase a d)
    | [] => if st.mayEvict && decide (2 ≤ st.segs.length) then s.evict t a else s.poolEmpty t a

/-- A stream needs a new segment: the quota test (R94). -/
def State.newSegment (s : State) (t : Task) (a : AppendData) : State :=
  let st := t.streamOf a
  if st.quota = 0 ∨ st.segs.length < st.quota then s.allocate t a
  else if st.mayEvict then s.evict t a
  else s.appendFails t a .streamFull

/-- An APPEND past step 6: values captured, SEQ_EXHAUSTED, then a slot (R93). -/
def State.workAppend (s : State) (t : Task) (id : Nat) (marker : Bool) (payload : List Byte) : State :=
  let a := captureAppend t.work s.stamp id marker payload
  let st := t.streamOf a
  if st.next = lastNext then s.complete t .seqExhausted []
  else
    match t.work.tables.newestOpen st with
    | some l => s.startBody t a l.seg
    | none => s.newSegment t a

/-- The slot at the write position has been used, by a record or a void (R72). -/
def Task.useSlot (t : Task) (id slot : Nat) : Task :=
  t.setTables (t.work.tables.setStream id { t.work.tables.stream id with writePos := slot + 1 })

/-- The record is committed: next becomes one greater (R70, R100). -/
def Task.commitRecord (t : Task) (id slot : Nat) : Task :=
  t.setTables (t.work.tables.setStream id
    { t.work.tables.stream id with writePos := slot + 1, next := (t.work.tables.stream id).next + 1 })

/-- The newest segment of a stream is closed: no further slot of it is used, and it counts as full (R48, step 1). -/
def Task.closeNewest (t : Task) (id : Nat) : Task :=
  t.setTables (t.work.tables.setStream id { t.work.tables.stream id with closed := true })

/-- A program of a record slot or of its mark has failed: the segment is closed at once, MEDIA_FAULT_SEEN is latched, and
the suspect entry is written (R48). The closure does not wait for the entry (log 42). -/
def State.makeSuspect (s : State) (t : Task) (id seg : Nat) (after : After) : State :=
  s.writeEntry ((t.latch alarmMediaFault).closeNewest id) (.suspect seg) after

/-- The reply of an APPEND whose record has been committed, next having advanced (R100). -/
def appendReply (t : Task) (a : AppendData) (seg slot : Nat) : List Byte :=
  be32 ((t.streamOf a).next - 1) ++ be32 a.stamp.tick.toNat ++ be16 a.temperature.toNat ++ [a.flags]
    ++ [byteOf a.profile] ++ be32 a.evicted ++ be16 seg ++ be16 slot

/-- The body program has ended: the mark program, or the failure handling of R48 and R99. -/
def State.bodyEnds (s : State) (t : Task) (a : AppendData) (seg slot : Nat) (ok : Bool) : State :=
  let st := t.streamOf a
  if ok then
    s.begin t (.program (markCell (slotBase seg st.slotSize slot)) t.work.programTiming) (.mark a seg slot)
  else
    s.makeSuspect (t.useSlot a.id slot) a.id seg (if a.secondAttempt then .giveUp a else .retry a)

/-- The mark program has ended (R99, R100): a mark that reads 5Ah is a record even after a trip. -/
def State.markEnds (s : State) (t : Task) (a : AppendData) (seg slot : Nat) (ok : Bool) : State :=
  let st := t.streamOf a
  if ok then
    let t' := t.commitRecord a.id slot
    s.complete t' .ok (appendReply t' a seg slot)
  else if readByte s.flash (slotBase seg st.slotSize slot + markOffset) = commitMark then
    s.makeSuspect (t.commitRecord a.id slot) a.id seg (.recorded a seg slot)
  else
    s.makeSuspect (t.useSlot a.id slot) a.id seg (if a.secondAttempt then .giveUp a else .retry a)

/-- The descriptor program has ended: the link entry, or the retirement of the segment (R53). -/
def State.descriptorEnds (s : State) (t : Task) (a : AppendData) (seg : Nat) (ok : Bool) : State :=
  let st := t.streamOf a
  if ok then s.writeEntry t (.linked seg a.id st.nextLink st.next) (.record a)
  else s.writeEntry (t.latch alarmMediaFault) (.retired seg .descriptorFailed) (.allocate a 0)

/-- The entry an erase of a data segment is recorded by (R55, R57). -/
def eraseEntry (tb : Tables) (seg : Nat) (ok tripped : Bool) : Entry :=
  if ok then .erased seg (min ((tb.seg seg).eraseCount + 1) maxEraseCount)
  else .retired seg (if tripped then .eraseWatchdog else .eraseVerify)

/-- The alarm of an operation that failed (R47). -/
def Task.latchUnless (t : Task) (ok : Bool) : Task := if ok then t else t.latch alarmMediaFault

/-- An erase of forced reclaim has ended; allocation goes on (R55, R56). -/
def State.forcedEraseEnds (s : State) (t : Task) (a : AppendData) (seg : Nat) (ok tripped : Bool) : State :=
  s.writeEntry (t.latchUnless ok) (eraseEntry t.work.tables seg ok tripped) (.allocate a 0)

/-! ### Reading (R103 to R108) -/

/-- The segment of the list that holds a retained number (R71, R104). -/
def Stream.segmentOf (st : Stream) (n : Nat) : Option SegLink :=
  (st.segs.filter (fun l => decide (l.firstSeq ≤ n))).getLast?

/-- The slot of a retained number: commit marks counted from index 0, up to the write position in the newest
segment (R104). -/
def Stream.slotOf (st : Stream) (flash : List Host.Cell) (n : Nat) : Option (Nat × Nat) :=
  match st.segmentOf n with
  | none => none
  | some l =>
    let slots := committedSlots flash l.seg st.slotSize
    let seen := if st.newest = some l then slots.filter (fun i => decide (i < st.writePos)) else slots
    (seen[n - l.firstSeq]?).map (fun slot => (l.seg, slot))

/-- The record in a slot is intact (R106, less the search). -/
def recordIntact (st : Stream) (slot : List Byte) (n : Nat) : Bool :=
  let len := ofBe ((slot.drop 4).take 2)
  let flags := slot.getD 6 0
  decide (len ≤ st.maxPayload)
    && decide (checkBytes (slot.take 7 ++ (slot.drop 8).take (st.optionBytes + len)) = slot.drop (st.slotSize - 2))
    && decide (ofBe (slot.take 4) = n)
    && flags.getLsbD 0 == st.timeOption && flags.getLsbD 1 == st.tempOption

/-- Whether the record is intact, and the payload READ gives for it (R105, R106). -/
def Stream.readRecord (st : Stream) (flash : List Host.Cell) (n : Nat) : Bool × List Byte :=
  match st.slotOf flash n with
  | none => (false, be32 n)
  | some (seg, i) =>
    let slot := readRange flash (slotBase seg st.slotSize i) st.slotSize
    if recordIntact st slot n then
      (true, slot.take 4 ++ [slot.getD 6 0] ++ (slot.drop 4).take 2
        ++ (slot.drop 8).take (st.optionBytes + ofBe ((slot.drop 4).take 2)))
    else (false, be32 n ++ slot)

/-- A stream's cursor set in the working copy. -/
def Task.setCursor (t : Task) (id c : Nat) : Task :=
  t.setTables (t.work.tables.setStream id { t.work.tables.stream id with cursor := c })

/-- READ (R103 to R106). -/
def State.startRead (s : State) (t : Task) (params : List Byte) : State :=
  match parseIdNumber params with
  | none => s.complete t .badParam []
  | some (id, n) =>
    let st := t.work.tables.stream id
    if st.state = .absent then s.complete t .streamAbsent []
    else if n < st.oldest then s.complete t .notRetained (be32 st.oldest ++ be32 st.next)
    else if st.next ≤ n then s.complete t .notYet (be32 st.oldest ++ be32 st.next)
    else
      let r := st.readRecord s.flash n
      s.complete t (if r.1 then .ok else .damagedData) r.2

/-- READ_NEXT (R108). -/
def State.startReadNext (s : State) (t : Task) (params : List Byte) : State :=
  match parseStreamId params with
  | none => s.complete t .badParam []
  | some id =>
    let st := t.work.tables.stream id
    if st.state = .absent then s.complete t .streamAbsent []
    else if st.oldest = st.next ∨ st.cursor = st.next then s.complete t .notYet (be32 st.cursor)
    else
      let n := max st.oldest st.cursor
      let r := st.readRecord s.flash n
      s.complete (t.setCursor id (n + 1))
        (if !r.1 then .damagedData else if st.cursor < st.oldest then .cursorSkipped else .ok)
        (be32 (st.oldest - st.cursor) ++ r.2)

/-- SEEK (R109). -/
def State.startSeek (s : State) (t : Task) (params : List Byte) : State :=
  match parseIdNumber params with
  | none => s.complete t .badParam []
  | some (id, n) =>
    let st := t.work.tables.stream id
    if st.state = .absent then s.complete t .streamAbsent []
    else
      let c := max st.oldest (min st.next n)
      s.complete (t.setCursor id c) (if c = n then .ok else .clamped) (be32 c)

/-! ### Trimming (R111) -/

/-- The segments a trim to `k` releases: those whose range ends at or below `k`; the newest only of a SEALED
stream (R111). -/
def releasedBy (k next : Nat) (sealed : Bool) : List SegLink → List Nat
  | [] => []
  | [l] => if sealed && decide (next ≤ k) then [l.seg] else []
  | l :: m :: rest => if m.firstSeq ≤ k then l.seg :: releasedBy k next sealed (m :: rest) else []

/-- Two-byte counts of the segments that become DIRTY and RETIRED (R82, R111). -/
def releaseCounts (t : Tables) (is : List Nat) : List Byte :=
  be16 (is.length - (t.suspects is).length) ++ be16 (t.suspects is).length

/-- The work of a TRIM that has passed its checks (R110, R111). -/
def State.workTrim (s : State) (t : Task) (id k : Nat) : State :=
  let st := t.work.tables.stream id
  if k ≤ st.oldest then s.complete t .ok (be32 st.oldest ++ be16 0 ++ be16 0)
  else
    let is := releasedBy k st.next (st.state == .sealed) st.segs
    s.writeEntry t (.trimmed id k is) (.reply (be32 k ++ releaseCounts t.work.tables is))

/-! ### Stream lifecycle (Chapter 4) -/

/-- The work of a CREATE_STREAM (R78). -/
def State.workCreate (s : State) (t : Task) (id : Nat) (st : Stream) : State :=
  s.writeEntry t (.created id st) (.reply ([byteOf id] ++ be32 st.next))

/-- The work of a SEAL_STREAM (R79). -/
def State.workSeal (s : State) (t : Task) (id : Nat) : State :=
  let next := (t.work.tables.stream id).next
  s.writeEntry t (.sealed id next) (.reply (be32 next))

/-- The work of a DELETE_STREAM (R82). -/
def State.workDelete (s : State) (t : Task) (id : Nat) : State :=
  s.writeEntry t (.deleted id)
    (.reply (releaseCounts t.work.tables ((t.work.tables.stream id).segs.map SegLink.seg)))

/-- The work of a SET_HOLD whose hold is off (R137). -/
def State.workSetHold (s : State) (t : Task) (id : Nat) : State :=
  s.writeEntry t (.holdSet id) (.reply [byteOf id, 0x00])

/-- The work of a CLEAR_HOLD whose hold is on (R138). -/
def State.workClearHold (s : State) (t : Task) (id : Nat) : State :=
  s.writeEntry t (.holdCleared id) (.reply [byteOf id, 0x01])

/-- The number of streams that are not ABSENT (R83, R173). -/
def Tables.liveStreams (t : Tables) : Nat := t.streams.countP (fun st => st.state != .absent)

/-- The work of a FORMAT in a running device; the last byte of the reply is the usable count at its completion (R83). -/
def State.workFormat (s : State) (t : Task) : State :=
  s.writeEntry t .formatted
    (.formatReply ([0x00, byteOf t.work.tables.liveStreams] ++ releaseCounts t.work.tables t.work.tables.linkedSegs))

/-! ### FORMAT in FAULTED (R85) -/

/-- The segment table FORMAT builds in FAULTED: FREE where a segment reads fully erased, else DIRTY (R85). -/
def rebuiltTables (flash : List Host.Cell) : Tables :=
  let dirty := unerasedSegments flash
  { Tables.fresh with
    segs := (List.replicate firstData ⟨.system, 0, false⟩) ++
      (List.range (segmentCount - firstData)).map (fun i =>
        ⟨if dirty.contains (i + firstData) then .dirty else .free, 0, false⟩)
    dirty := dirty }

/-- The tables of the image being built, with the targets that failed marked unusable (R85). -/
def formatTables (flash : List Host.Cell) (bad : List Nat) : Tables :=
  let t := rebuiltTables flash
  { t with usable := (List.range firstData).map (fun k => !bad.contains k) }

/-- The program of one page of a target, of generation 1 (R85). -/
def State.formatPage (s : State) (t : Task) (bad : List Nat) (k page : Nat) : Operation :=
  .catPage k page 1 (formatTables s.flash bad).recorded t.work.programTiming

/-- Try the next target: erase it first, whatever it reads; with none left MEDIA_FAULT (R85). -/
def State.formatTarget (s : State) (t : Task) (targets bad : List Nat) : State :=
  match targets with
  | [] => s.complete t .mediaFault []
  | k :: ks => s.begin t (.catErase k t.work.eraseTiming) (.format (k :: ks) bad .erasing)

/-- The image is written: the device has a catalogue again and completes OK (R85). -/
def State.formatDone (s : State) (t : Task) (k : Nat) (bad : List Nat) : State :=
  let tb := formatTables s.flash bad
  let t' := (t.setTables tb).setCat ⟨some k, 0, 1, false⟩
  let degraded := tb.usableCount == 1
  let t'' := if degraded then
      (t'.raise [raised .catalogueDegraded s.stamp 1 (bad.getLastD 0)]).latch alarmCatalogueDegraded
    else t'
  s.complete t'' .ok ([0x01, 0x00] ++ be16 tb.dirty.length ++ be16 0 ++ [byteOf tb.usableCount])

/-- An operation of a FORMAT in FAULTED has ended (R85). -/
def State.formatEnds (s : State) (t : Task) (targets bad : List Nat) (step : TargetStep) (ok : Bool) : State :=
  match targets with
  | [] => s.complete t .mediaFault []
  | k :: ks =>
    if ok then
      match step with
      | .erasing => s.begin t (s.formatPage t bad k 0) (.format (k :: ks) bad (.page 0))
      | .page n =>
        if n < lastImagePage then s.begin t (s.formatPage t bad k (n + 1)) (.format (k :: ks) bad (.page (n + 1)))
        else s.begin t (.catMark k t.work.programTiming) (.format (k :: ks) bad .marking)
      | .marking => s.formatDone t k bad
    else s.formatTarget (t.latch alarmMediaFault) ks (bad ++ [k])

end Sys2Proof.Machine
end

