-- ==== Sys2Proof/Machine/Fuses.lean ====
section
/-! DEFINITION. The fuse store: its cells and what the mount reads from them (R143, R145 to R148, R151), and the
work of the three requests that program it (R144, R150, R152). -/

namespace Sys2Proof.Machine

/-! ### Cells and contents -/

/-- One cell of the fuse store. -/
def FuseStore.cell (f : FuseStore) : FuseCell → Bool
  | .attemptA => f.attemptA
  | .cellA => f.cellA
  | .attemptB => f.attemptB
  | .cellB => f.cellB
  | .markerA => f.markerA
  | .markerB => f.markerB
  | .labelMarker => f.labelMarker

/-- The fuse store after a program of one cell: programmed if it reads so, and never unprogrammed again (R145). -/
def FuseStore.afterCell (f : FuseStore) (c : FuseCell) (rb : ReadBack) : FuseStore :=
  let v := f.cell c || decide (rb = .asIntended)
  match c with
  | .attemptA => { f with attemptA := v }
  | .cellA => { f with cellA := v }
  | .attemptB => { f with attemptB := v }
  | .cellB => { f with cellB := v }
  | .markerA => { f with markerA := v }
  | .markerB => { f with markerB := v }
  | .labelMarker => { f with labelMarker := v }

/-- The bytes of an object with contents. -/
def FuseStore.area (f : FuseStore) : FuseArea → Option (List Byte)
  | .bankA => f.bankA
  | .bankB => f.bankB
  | .label => f.label

/-- What an object reads after a program of its contents; `none` while nothing of it was programmed. -/
def areaAfter (old : Option (List Byte)) (intended : List Byte) : ReadBack → Option (List Byte)
  | .asIntended => some intended
  | .untouched => old
  | .differs bytes => some (fit intended.length 0x00 bytes)

/-- An entry record of 8 bytes (R127). -/
def profileBytes (p : Profile) : List Byte :=
  [flagByte p.used] ++ be16 p.low.toNat ++ be16 p.high.toNat ++
    [flagByte p.permits, byteOf p.programClass, byteOf p.eraseClass]

/-- The 64 bytes of a profile table (R127, R145). -/
def tableBytes (ps : List Profile) : List Byte := ps.flatMap profileBytes

/-- The 66 bytes of a profile bank: the table and its check (R145). -/
def bankBytes (ps : List Profile) : List Byte := tableBytes ps ++ checkBytes (tableBytes ps)

/-- The 18 bytes of the owner label's object (R145). -/
def labelBytes (l : List Byte) : List Byte := l ++ checkBytes l

/-- An entry record read back, if it is well formed (R146). -/
def readProfile (bs : List Byte) : Option Profile :=
  match bs with
  | [u, lh, ll, hh, hl, p, pc, ec] =>
    match parseFlag u, parseFlag p with
    | some used, some permits =>
      if pc.toNat ≤ 3 ∧ ec.toNat ≤ 3 then
        some ⟨used, BitVec.ofNat 16 (ofBe [lh, ll]), BitVec.ofNat 16 (ofBe [hh, hl]), permits, pc.toNat, ec.toNat⟩
      else none
    | _, _ => none
  | _ => none

/-- The eight entry records of a bank, if every one is well formed. -/
def readEntries (bs : List Byte) : Option (List Profile) :=
  (List.range 8).mapM (fun i => readProfile ((bs.drop (8 * i)).take 8))

/-- The table of a good bank: matching check, well-formed entries, entry 0 used (R146). -/
def goodBank (b : Option (List Byte)) : Option (List Profile) :=
  match b with
  | none => none
  | some bs =>
    if bs.length = 66 ∧ checkBytes (bs.take 64) = bs.drop 64 then
      match readEntries (bs.take 64) with
      | some ps => if (ps.getD 0 ⟨false, 0, 0, false, 0, 0⟩).used then some ps else none
      | none => none
    else none

/-- A bank after a program of its contents. Contents that did not verify are bad at every mount (R150): bytes that would
read as another good table are held as if nothing of it could be read (log 36). -/
def bankAfter (old : Option (List Byte)) (intended : List Byte) (rb : ReadBack) : Option (List Byte) :=
  let read := areaAfter old intended rb
  if read = some intended ∨ goodBank read = none then read else none

/-- The fuse store after a program of an object's contents (R145, R150). -/
def FuseStore.afterBytes (f : FuseStore) (ar : FuseArea) (bytes : List Byte) (rb : ReadBack) : FuseStore :=
  match ar with
  | .bankA => { f with bankA := bankAfter f.bankA bytes rb }
  | .bankB => { f with bankB := bankAfter f.bankB bytes rb }
  | .label => { f with label := areaAfter f.label bytes rb }

/-! ### What the mount takes from the fuse store -/

/-- The state of a guard-fix cell from itself and its attempt cell (R143). -/
def guardCellState (attempt cell : Bool) : GuardCell :=
  if cell then .blown else if attempt then .failed else .untried

/-- The bank state of the two markers (R146). -/
def FuseStore.bankState (f : FuseStore) : BankState :=
  if f.markerB then .bUsed else if f.markerA then .aUsed else .fresh

/-- The profile table, its origin, and the banks found bad, 2 for B and 1 for A, B first (R147, R148). -/
def FuseStore.loadTable (f : FuseStore) : List Profile × Origin × List Nat :=
  match f.bankState with
  | .fresh => (factoryProfiles, .factory, [])
  | .aUsed =>
    match goodBank f.bankA with
    | some ps => (ps, .bankA, [])
    | none => (factoryProfiles, .factory, [1])
  | .bUsed =>
    match goodBank f.bankB with
    | some ps => (ps, .bankB, [])
    | none =>
      if f.markerA then
        match goodBank f.bankA with
        | some ps => (ps, .bankA, [2])
        | none => (factoryProfiles, .factory, [2, 1])
      else (factoryProfiles, .factory, [2])

/-- The label's 16 bytes as read; what an unprogrammed label reads is the device's own (log 19). -/
def FuseStore.labelRead (f : FuseStore) : List Byte :=
  match f.label with
  | some bs => bs.take 16
  | none => (List.range 16).map Config.blankLabelByte

/-- The label state of the marker and the check (R151). -/
def FuseStore.labelStateOf (f : FuseStore) : LabelState :=
  if !f.labelMarker then .absent
  else
    match f.label with
    | some bs => if bs.length = 18 ∧ checkBytes (bs.take 16) = bs.drop 16 then .present else .damaged
    | none => .damaged

/-- The working copies the mount takes (R145). -/
def FuseStore.copies (f : FuseStore) : FuseCopies where
  identity := f.identity
  identityOk := check f.identity == f.identityCheck
  guardA := guardCellState f.attemptA f.cellA
  guardB := guardCellState f.attemptB f.cellB
  bank := f.bankState
  origin := f.loadTable.2.1
  labelState := f.labelStateOf
  label := if f.labelStateOf = .absent then List.replicate 16 0x00 else f.labelRead

/-- The FUSE_FAULT events of a mount, in the order of R148: identity, bank B, bank A, label. -/
def FuseStore.faults (f : FuseStore) (st : Stamp) : List Raised :=
  (if check f.identity = f.identityCheck then [] else [raised .fuseFault st 1 0])
    ++ f.loadTable.2.2.map (fun b => raised .fuseFault st 2 b)
    ++ (if f.labelStateOf = .damaged then [raised .fuseFault st 3 0] else [])

/-! ### The work of the programming requests -/

/-- The working copies of the fuse store replaced. -/
def Task.setFuse (t : Task) (f : FuseCopies) : Task := { t with work := { t.work with fuse := f } }

/-- A fuse fault met in programming: the event and the alarm (R148). -/
def Task.fuseFault (t : Task) (st : Stamp) (cause object : Nat) : Task :=
  (t.raise [raised .fuseFault st cause object]).latch alarmFuseFault

/-- The bank number of R148 and R150: 1 for A, 2 for B. -/
def bankNumber (second : Bool) : Nat := if second then 2 else 1

/-- The bank state once a bank's marker has verified (R150). -/
def bankUsed (second : Bool) : BankState := if second then .bUsed else .aUsed

/-- The work of COMMIT_PROFILES: the marker of the next unused bank (R150). -/
def State.workCommit (s : State) (t : Task) : State :=
  let second := t.work.fuse.bank == .aUsed
  s.begin t (.fuseCell (if second then .markerB else .markerA)) (.bankMarker second)

/-- A bank marker has been programmed and read back (R150). -/
def State.bankMarkerEnds (s : State) (t : Task) (second ok : Bool) : State :=
  if ok then
    s.begin t (.fuseBytes (if second then .bankB else .bankA) (bankBytes t.work.profiles)) (.bankContents second)
  else
    s.complete (t.fuseFault s.stamp 4 (bankNumber second)) .fuseFault
      [t.work.fuse.bank.code, byteOf (bankNumber second)]

/-- A bank's contents have been programmed and read back (R150). -/
def State.bankContentsEnds (s : State) (t : Task) (second ok : Bool) : State :=
  let t' := t.setFuse { t.work.fuse with bank := bankUsed second }
  let reply := [(bankUsed second).code, byteOf (bankNumber second)]
  if ok then s.complete t' .ok reply
  else s.complete (t'.fuseFault s.stamp 5 (bankNumber second)) .fuseFault reply

/-- The work of SET_OWNER_LABEL: the label marker (R152). -/
def State.workLabel (s : State) (t : Task) (bytes : List Byte) : State :=
  s.begin t (.fuseCell .labelMarker) (.labelMarker bytes)

/-- The label marker has been programmed and read back (R152). -/
def State.labelMarkerEnds (s : State) (t : Task) (bytes : List Byte) (ok : Bool) : State :=
  if ok then s.begin t (.fuseBytes .label (labelBytes bytes)) (.labelContents bytes)
  else s.complete (t.fuseFault s.stamp 6 0) .fuseFault [LabelState.absent.code]

/-- The label's contents have been programmed and read back (R152). -/
def State.labelContentsEnds (s : State) (t : Task) (bytes : List Byte) (ok : Bool) : State :=
  if ok then
    s.complete (t.setFuse { t.work.fuse with labelState := .present, label := bytes }) .ok [LabelState.present.code]
  else
    s.complete ((t.setFuse { t.work.fuse with labelState := .damaged, label := s.fuses.labelRead }).fuseFault
      s.stamp 7 0) .fuseFault [LabelState.damaged.code]

/-- FIX_GUARD without a blown cell (R144). -/
def State.guardFails (s : State) (t : Task) : State := s.complete (t.latch alarmFuseFault) .fuseFault []

/-- The work of FIX_GUARD: the attempt cell of the first cell that is not failed (R143, R144). -/
def State.workFixGuard (s : State) (t : Task) : State :=
  if t.work.fuse.guardA != .failed then s.begin t (.fuseCell .attemptA) (.guardAttempt false)
  else if t.work.fuse.guardB != .failed then s.begin t (.fuseCell .attemptB) (.guardAttempt true)
  else s.guardFails t

/-- An attempt cell has been programmed and read back (R144). -/
def State.guardAttemptEnds (s : State) (t : Task) (second ok : Bool) : State :=
  if ok then s.begin t (.fuseCell (if second then .cellB else .cellA)) (.guardFix second)
  else s.guardFails t

/-- A guard-fix cell has been programmed and read back (R143, R144). -/
def State.guardFixEnds (s : State) (t : Task) (second ok : Bool) : State :=
  if second then
    if ok then s.complete (t.setFuse { t.work.fuse with guardB := .blown }) .ok [0x02]
    else s.guardFails (t.setFuse { t.work.fuse with guardB := .failed })
  else
    if ok then s.complete (t.setFuse { t.work.fuse with guardA := .blown }) .ok [0x01]
    else
      let t' := (t.setFuse { t.work.fuse with guardA := .failed }).latch alarmFuseFault
      if t'.work.fuse.guardB != .failed then s.begin t' (.fuseCell .attemptB) (.guardAttempt true)
      else s.guardFails t'

end Sys2Proof.Machine
end

