-- ==== Sys2Proof/Machine/Engine.lean ====
section
/-! DEFINITION. The engine: what each media request does once it is started, in the order of R39, and how it
goes on when an operation ends. Background operations stand here too, since they share refresh, erase and
catalogue work with the requests (R37, R58). -/

namespace Sys2Proof.Machine

/-- A refusal with an empty payload (R40). -/
def State.refuse (s : State) (t : Task) (st : Status) : State := s.complete t st []

/-! ### Work after step 6 -/

/-- SET_OPTION writes its entry (R156). -/
def State.workOption (s : State) (t : Task) (code : Nat) (v : Half) : State :=
  s.writeEntry t (.setting code v)
    (.option code ([byteOf code] ++ be16 (t.work.tables.settings.get code).toNat ++ be16 v.toNat))

/-- The work of a modifying request that has passed steps 1 to 6; its parameters are those of step 1 (R39).
In FAULTED the one modifying request that can run is FORMAT (R28, R84). -/
def State.startWork (s : State) (t : Task) (r : Request) : State :=
  match r.kind with
  | .append =>
    match parseAppend r.params with
    | some (id, marker, payload) => s.workAppend t id marker payload
    | none => s.refuse t .badParam
  | .trim =>
    match parseIdNumber r.params with
    | some (id, k) => s.workTrim t id k
    | none => s.refuse t .badParam
  | .createStream =>
    match parseCreate r.params with
    | some (id, st) => s.workCreate t id st
    | none => s.refuse t .badParam
  | .deleteStream =>
    match parseStreamId r.params with
    | some id => s.workDelete t id
    | none => s.refuse t .badParam
  | .sealStream =>
    match parseStreamId r.params with
    | some id => s.workSeal t id
    | none => s.refuse t .badParam
  | .setHold =>
    match parseStreamId r.params with
    | some id => s.workSetHold t id
    | none => s.refuse t .badParam
  | .clearHold =>
    match parseStreamId r.params with
    | some id => s.workClearHold t id
    | none => s.refuse t .badParam
  | .format => if s.dev = .faulted then s.formatTarget t [0, 1, 2, 3] [] else s.workFormat t
  | .setOption =>
    match parseSetOption r.params with
    | some (code, v) => s.workOption t code v
    | none => s.refuse t .badParam
  | .commitProfiles => s.workCommit t
  | .setOwnerLabel =>
    match parseLabel r.params with
    | some bytes => s.workLabel t bytes
    | none => s.refuse t .badParam
  | .fixGuard => s.workFixGuard t
  | .getIdentity | .getSettings | .streamInfo | .poolInfo | .readProfiles | .readEvents | .releaseEvents
  | .clearAlarms | .linkStats | .getTime | .setTime | .arm | .abort | .read | .readNext | .seek
  | .sampleTemperature | .setTemperature | .writeProfile => s.refuse t .badParam

/-- Step 6 once the sample has been refreshed if it was due: TEMP_INHIBIT, or the work (R39, R125). -/
def State.afterRefresh (s : State) (t : Task) (r : Request) : State :=
  if t.work.permits then s.startWork t r else s.refuse t .tempInhibit

/-- Steps 5 and 6 of a modifying request: READ_ONLY, then a due sample is refreshed (R39, R114). -/
def State.stepsFiveSix (s : State) (t : Task) (r : Request) (env : Env) : State :=
  if t.work.cat.readOnly then s.refuse t .readOnly
  else if t.work.due then
    match t.work.activeSource with
    | .external => s.begin t .sensor .refresh
    | .internal => s.afterRefresh (t.absorb (internalAttempt t.work s.stamp env)) r
    | .host => s.afterRefresh t r
  else s.afterRefresh t r

/-! ### Steps 1 to 4 of the modifying kinds -/

/-- APPEND: BAD_PARAM, with the stream's own largest payload; STREAM_ABSENT; STREAM_SEALED (R92, R93). -/
def State.startAppend (s : State) (t : Task) (r : Request) (env : Env) : State :=
  match parseAppend r.params with
  | none => s.refuse t .badParam
  | some (id, _, payload) =>
    let st := t.work.tables.stream id
    if st.state = .absent then s.refuse t .streamAbsent
    else if st.maxPayload < payload.length then s.refuse t .badParam
    else if st.state = .sealed then s.refuse t .streamSealed
    else s.stepsFiveSix t r env

/-- TRIM (R110). -/
def State.startTrim (s : State) (t : Task) (r : Request) (env : Env) : State :=
  match parseIdNumber r.params with
  | none => s.refuse t .badParam
  | some (id, k) =>
    let st := t.work.tables.stream id
    if st.state ≠ .absent ∧ st.next < k then s.refuse t .badParam
    else if t.work.guardEngaged env.guardHigh then s.refuse t .guarded
    else if st.state = .absent then s.refuse t .streamAbsent
    else if st.hold then s.refuse t .held
    else s.stepsFiveSix t r env

/-- CREATE_STREAM (R77, R78). -/
def State.startCreate (s : State) (t : Task) (r : Request) (env : Env) : State :=
  match parseCreate r.params with
  | none => s.refuse t .badParam
  | some (id, _) =>
    if (t.work.tables.stream id).state ≠ .absent then s.refuse t .streamExists
    else s.stepsFiveSix t r env

/-- DELETE_STREAM (R81). -/
def State.startDelete (s : State) (t : Task) (r : Request) (env : Env) : State :=
  match parseStreamId r.params with
  | none => s.refuse t .badParam
  | some id =>
    let st := t.work.tables.stream id
    if !r.armed then s.refuse t .notArmed
    else if t.work.guardEngaged env.guardHigh then s.refuse t .guarded
    else if st.state = .absent then s.refuse t .streamAbsent
    else if st.hold then s.refuse t .held
    else s.stepsFiveSix t r env

/-- SEAL_STREAM (R79). -/
def State.startSeal (s : State) (t : Task) (r : Request) (env : Env) : State :=
  match parseStreamId r.params with
  | none => s.refuse t .badParam
  | some id =>
    let st := t.work.tables.stream id
    if st.state = .absent then s.refuse t .streamAbsent
    else if st.state = .sealed then s.refuse t .streamSealed
    else s.stepsFiveSix t r env

/-- SET_HOLD; a hold that is on already completes OK at step 4 (R137). -/
def State.startSetHold (s : State) (t : Task) (r : Request) (env : Env) : State :=
  match parseStreamId r.params with
  | none => s.refuse t .badParam
  | some id =>
    let st := t.work.tables.stream id
    if st.state = .absent then s.refuse t .streamAbsent
    else if st.hold then s.complete t .ok [byteOf id, 0x01]
    else s.stepsFiveSix t r env

/-- CLEAR_HOLD; a hold that is off already completes OK at step 4 (R138). -/
def State.startClearHold (s : State) (t : Task) (r : Request) (env : Env) : State :=
  match parseStreamId r.params with
  | none => s.refuse t .badParam
  | some id =>
    let st := t.work.tables.stream id
    if t.work.guardEngaged env.guardHigh then s.refuse t .guarded
    else if st.state = .absent then s.refuse t .streamAbsent
    else if !st.hold then s.complete t .ok [byteOf id, 0x00]
    else s.stepsFiveSix t r env

/-- FORMAT (R83, R84). -/
def State.startFormat (s : State) (t : Task) (r : Request) (env : Env) : State :=
  match parseEmpty r.params with
  | none => s.refuse t .badParam
  | some () =>
    if !r.armed then s.refuse t .notArmed
    else if t.work.guardEngaged env.guardHigh then s.refuse t .guarded
    else if t.work.tables.streams.any Stream.hold then s.refuse t .held
    else s.stepsFiveSix t r env

/-- The guard refuses a SET_OPTION of this item and value (R133, R155). -/
def optionGuarded (c : Committed) (guardHigh : Bool) (code : Nat) (v : Half) : Bool :=
  c.guardEngaged guardHigh && (code == 7 || (code == 1 && (v != 0x0001 || c.fuse.guardFixed)))

/-- SET_OPTION (R155). -/
def State.startOption (s : State) (t : Task) (r : Request) (env : Env) : State :=
  match parseSetOption r.params with
  | none => s.refuse t .badParam
  | some (code, v) =>
    if optionGuarded t.work env.guardHigh code v then s.refuse t .guarded
    else s.stepsFiveSix t r env

/-- COMMIT_PROFILES (R149). -/
def State.startCommit (s : State) (t : Task) (r : Request) (env : Env) : State :=
  match parseEmpty r.params with
  | none => s.refuse t .badParam
  | some () =>
    if !r.armed then s.refuse t .notArmed
    else if t.work.guardEngaged env.guardHigh then s.refuse t .guarded
    else if t.work.fuse.bank = .bUsed then s.refuse t .noBank
    else s.stepsFiveSix t r env

/-- SET_OWNER_LABEL (R152). -/
def State.startLabel (s : State) (t : Task) (r : Request) (env : Env) : State :=
  match parseLabel r.params with
  | none => s.refuse t .badParam
  | some _ =>
    if !r.armed then s.refuse t .notArmed
    else if t.work.fuse.labelState ≠ .absent then s.refuse t .fuseSpent
    else s.stepsFiveSix t r env

/-- FIX_GUARD (R144). -/
def State.startFixGuard (s : State) (t : Task) (r : Request) (env : Env) : State :=
  match parseEmpty r.params with
  | none => s.refuse t .badParam
  | some () =>
    if !r.armed then s.refuse t .notArmed
    else if t.work.fuse.guardFixed then s.refuse t .fuseSpent
    else s.stepsFiveSix t r env

/-! ### The Thermal Unit's requests -/

/-- The code of a value's source, FFh for none (R128). -/
def sourceByte (src : Option Source) : Byte :=
  match src with
  | none => 0xFF
  | some x => x.code

/-- The 14-byte payload of SAMPLE_TEMPERATURE (R128). -/
def sampleReply (c : Committed) (attempt : Source) (reason : Nat) : List Byte :=
  let s := c.sample
  [attempt.code, byteOf reason] ++ be16 (s.value.getD noSample).toNat ++ [sourceByte s.source]
    ++ be32 (if s.value.isSome then s.age else 0xFFFFFFFF)
    ++ [flagByte s.stale, byteOf s.failures, flagByte s.fallback, byteOf c.activeProfile, flagByte c.permits]

/-- SAMPLE_TEMPERATURE: one refresh, due or not (R114, R128). -/
def State.startSample (s : State) (t : Task) (params : List Byte) (env : Env) : State :=
  match parseEmpty params with
  | none => s.refuse t .badParam
  | some () =>
    match t.work.activeSource with
    | .external => s.begin t .sensor .sampling
    | .internal =>
      let t' := t.absorb (internalAttempt t.work s.stamp env)
      s.complete t' .ok (sampleReply t'.work .internal 0)
    | .host => s.complete t .ok (sampleReply t.work .host 0)

/-- SET_TEMPERATURE (R129). -/
def State.startSetTemperature (s : State) (t : Task) (params : List Byte) : State :=
  match parseSetTemperature params with
  | none => s.refuse t .badParam
  | some v =>
    if t.work.tables.settings.source ≠ .host ∨ t.work.sample.fallback = true then s.refuse t .wrongSource
    else
      let before := t.work.activeProfile
      let t' := t.absorb (selectProfile { t.work with sample := t.work.sample.succeeded v .host } s.stamp)
      s.complete t' .ok [byteOf before, byteOf t'.work.activeProfile, flagByte t'.work.permits]

/-- WRITE_PROFILE (R126). -/
def State.startWriteProfile (s : State) (t : Task) (params : List Byte) (env : Env) : State :=
  match parseWriteProfile params with
  | none => s.refuse t .badParam
  | some (i, p) =>
    if t.work.guardEngaged env.guardHigh then s.refuse t .guarded
    else
      let before := t.work.activeProfile
      let t' := t.absorb (selectProfile { t.work with profiles := t.work.profiles.set i p } s.stamp)
      s.complete t' .ok [byteOf before, byteOf t'.work.activeProfile]

/-! ### Starting a request (R37, R39) -/

/-- The kind's own checks and work, from step 1 of R39 on. -/
def State.startKind (s : State) (t : Task) (r : Request) (env : Env) : State :=
  match r.kind with
  | .read => s.startRead t r.params
  | .readNext => s.startReadNext t r.params
  | .seek => s.startSeek t r.params
  | .sampleTemperature => s.startSample t r.params env
  | .setTemperature => s.startSetTemperature t r.params
  | .writeProfile => s.startWriteProfile t r.params env
  | .append => s.startAppend t r env
  | .trim => s.startTrim t r env
  | .createStream => s.startCreate t r env
  | .deleteStream => s.startDelete t r env
  | .sealStream => s.startSeal t r env
  | .setHold => s.startSetHold t r env
  | .clearHold => s.startClearHold t r env
  | .format => s.startFormat t r env
  | .setOption => s.startOption t r env
  | .commitProfiles => s.startCommit t r env
  | .setOwnerLabel => s.startLabel t r env
  | .fixGuard => s.startFixGuard t r env
  | .getIdentity | .getSettings | .streamInfo | .poolInfo | .readProfiles | .readEvents | .releaseEvents
  | .clearAlarms | .linkStats | .getTime | .setTime | .arm | .abort => s.refuse t .badParam

/-- The engine and the Media Manager are idle and the array is ready (R37, R58, R162). -/
def State.idleMedia (s : State) : Bool :=
  s.job.isNone && s.ready && !s.resetLow && !s.sleepPending && !s.contexts.any Context.isExecuting

/-- The context table with a request EXECUTING (R24, R37). -/
def State.markExecuting (s : State) (i : Nat) (r : Request) : State :=
  { s with contexts := s.contexts.set i (.held r .executing) }

/-- The engine starts the oldest QUEUED request if it can (R37): it enters EXECUTING and goes through R39. -/
def State.startNext (s : State) (env : Env) : State :=
  if s.idleMedia && (s.dev == .running || s.dev == .faulted) then
    match nextQueued s.contexts with
    | none => s
    | some i =>
      match s.contexts.getD i .free with
      | .free => s
      | .held r _ => (s.markExecuting i r).startKind ⟨.request i r, s.committed, [], 0⟩ r env
  else s

/-! ### Background operations (R58) -/

/-- A background operation after its refresh: one erase of the head of the dirty list, or a pause (R58). -/
def State.backgroundRefreshed (s : State) (t : Task) : State :=
  if t.work.permits then
    match t.work.tables.dirty with
    | d :: _ => s.begin t (.erase d t.work.eraseTiming) (.backgroundErase d)
    | [] => s.endBackground t false
  else s.endBackground t true

/-- A background operation begins, with a refresh if `refresh` (R58, R114). -/
def State.startBackground (s : State) (refresh : Bool) (env : Env) : State :=
  let t : Task := ⟨.background, s.committed, [], 0⟩
  if refresh then
    match t.work.activeSource with
    | .external => s.begin t .sensor .backgroundRefresh
    | .internal => s.backgroundRefreshed (t.absorb (internalAttempt t.work s.stamp env))
    | .host => s.backgroundRefreshed t
  else s.backgroundRefreshed t

/-- The conditions of R58, less the pause. -/
def State.mayReclaim (s : State) : Bool :=
  s.dev == .running && s.idleMedia && !anyOutstanding s.contexts && !s.committed.tables.dirty.isEmpty
    && !s.committed.cat.readOnly

/-! ### Going on when an operation ends -/

/-- The owner's request, where the owner is one. -/
def Task.request? (t : Task) : Option Request :=
  match t.owner with
  | .request _ r => some r
  | .background => none

/-- A sensor attempt has ended with this outcome; the source of the attempt was EXTERNAL (R114, R119, R128). -/
def State.sensorEnds (s : State) (j : Job) (e : AttemptEnd) (env : Env) : State :=
  let t := j.task.absorb (applyAttempt j.task.work s.stamp e env)
  match j.stage with
  | .sampling =>
    match e with
    | .value _ => s.complete t .ok (sampleReply t.work .external 0)
    | .failure reason _ => s.complete t .sensorFailed (sampleReply t.work .external reason.code)
  | .backgroundRefresh => s.backgroundRefreshed t
  | _ =>
    match t.request? with
    | some r => s.afterRefresh t r
    | none => s.endBackground t false

/-- SET_OPTION's effect on the Thermal Unit: writing SENSOR_SOURCE ends fallback (R121, R156). It comes with
the OK, so not where the request completes MEDIA_FAULT though its entry is written (DEDUCED, log 53). -/
def optionEffect (code : Nat) (c : Committed) : Committed :=
  if code = 2 then { c with sample := { c.sample with fallback := false, failures := 0, dueMark := true } } else c

/-- What follows once the catalogue writer has done its work. -/
def State.afterWriter (s : State) (t : Task) (after : After) : State :=
  match after with
  | .reply payload => s.complete t .ok payload
  | .formatReply payload => s.complete t .ok (payload ++ [byteOf t.work.tables.usableCount])
  | .option code payload => s.complete { t with work := optionEffect code t.work } .ok payload
  | .allocate a _ => s.allocate t a
  | .record a =>
    match (t.streamOf a).newest with
    | some l => s.startBody t a l.seg
    | none => s.appendFails t a .mediaFault
  | .recorded a seg slot => s.complete t .ok (appendReply t a seg slot)
  | .retry a => s.newSegment t { a with secondAttempt := true }
  | .giveUp a => s.appendFails t a .mediaFault
  | .backgroundEnd => s.endBackground t false

/-- The writer's next move is carried out. -/
def State.runWriter (s : State) (after : After) : WriterNext → State
  | .operate t op w => s.begin t op (.catalogue w)
  | .full t => s.entryUnwritten t after
  | .done t => s.afterWriter t after

/-- An erase of a background operation has ended (R55, R58). -/
def State.backgroundEraseEnds (s : State) (t : Task) (seg : Nat) (ok tripped : Bool) : State :=
  s.writeEntry (t.latchUnless ok) (eraseEntry t.work.tables seg ok tripped) .backgroundEnd

/-- An array or fuse operation has ended, verified (`ok`) or not, by the watchdog (`tripped`) or not; what it
left in its target stands already (R47, R145). -/
def State.stageEnds (s : State) (j : Job) (ok tripped : Bool) : State :=
  match j.stage with
  | .catalogue w => s.runWriter (w.afterOperation ok) (writerEnds s.catSegs s.stamp j.task w ok)
  | .backgroundErase seg => s.backgroundEraseEnds j.task seg ok tripped
  | .descriptor a seg => s.descriptorEnds j.task a seg ok
  | .forcedErase a seg => s.forcedEraseEnds j.task a seg ok tripped
  | .body a seg slot => s.bodyEnds j.task a seg slot ok
  | .mark a seg slot => s.markEnds j.task a seg slot ok
  | .format targets bad step => s.formatEnds j.task targets bad step ok
  | .guardAttempt second => s.guardAttemptEnds j.task second ok
  | .guardFix second => s.guardFixEnds j.task second ok
  | .bankMarker second => s.bankMarkerEnds j.task second ok
  | .bankContents second => s.bankContentsEnds j.task second ok
  | .labelMarker bytes => s.labelMarkerEnds j.task bytes ok
  | .labelContents bytes => s.labelContentsEnds j.task bytes ok
  | .refresh | .sampling | .backgroundRefresh => s

/-! ### What an operation leaves, and whether it verified -/

/-- The operation is one of the array (R47). -/
def Operation.isArray : Operation → Bool
  | .program _ _ | .erase _ _ | .catErase _ _ | .catPage _ _ _ _ _ | .catMark _ _ | .catEntry _ _ _ _ => true
  | .sensor | .fuseCell _ | .fuseBytes _ _ => false

/-- The operation is one of the fuse store (R145). -/
def Operation.isFuse : Operation → Bool
  | .fuseCell _ | .fuseBytes _ _ => true
  | _ => false

/-- The operation is an erase of the array (R168). -/
def Operation.isErase : Operation → Bool
  | .erase _ _ | .catErase _ _ => true
  | _ => false

/-- A program that a hardware reset stops counts as failed whatever it left: that of an entry (R60). A validity mark that
then reads as programmed makes its image the newer one (R61, R174). -/
def Operation.failsWhenStopped : Operation → Bool
  | .catEntry _ _ _ _ => true
  | .sensor | .program _ _ | .erase _ _ | .catErase _ _ | .catPage _ _ _ _ _ | .catMark _ _ | .fuseCell _
  | .fuseBytes _ _ => false

/-- The state with one catalogue segment of the array changed. -/
def State.setCatSeg (s : State) (k : Nat) (f : CatSegment → CatSegment) : State :=
  { s with catSegs := s.catSegs.set k (f (catSegAt s.catSegs k)) }

/-- What the operation leaves in the array or the fuse store (R47, R145, R170), `tripped` being set for a program that
counts as failed whatever its target reads. -/
def State.land (s : State) (op : Operation) (rb : ReadBack) (tripped : Bool) : State :=
  match op with
  | .sensor => s
  | .program cells _ => { s with flash := flashAfterProgram s.flash cells rb }
  | .erase seg _ => { s with flash := flashAfterErase s.flash seg rb }
  | .catErase k _ => s.setCatSeg k (fun c => c.afterErase rb)
  | .catPage k page generation image _ => s.setCatSeg k (fun c => c.afterPage page generation image rb)
  | .catMark k _ => s.setCatSeg k (fun c => c.afterMark rb tripped)
  | .catEntry k position e _ => s.setCatSeg k (fun c => c.afterEntry position e rb tripped)
  | .fuseCell c => { s with fuses := s.fuses.afterCell c rb }
  | .fuseBytes ar bytes => { s with fuses := s.fuses.afterBytes ar bytes rb }

/-- The operation verified: its target reads as intended (R47, R145); `s` is the state it left. -/
def State.verified (s : State) (op : Operation) (rb : ReadBack) : Bool :=
  match op with
  | .sensor => true
  | .program cells _ => landedCells cells rb == cells
  | .erase seg _ => (segmentCells s.flash seg).isEmpty
  | .catErase k _ => (catSegAt s.catSegs k).readsErased
  | .catPage _ _ _ _ _ | .catMark _ _ | .catEntry _ _ _ _ => decide (rb = .asIntended)
  | .fuseCell c => s.fuses.cell c
  | .fuseBytes ar bytes => s.fuses.area ar == some bytes

/-! ### The drain of a software reset (R168) -/

/-- The second operation of a unit of two, if the operation that has ended began one (R102, R144, R150, R152). -/
def unitPartner (j : Job) : Option (Operation × Stage) :=
  match j.stage with
  | .body a seg slot =>
    let st := j.task.streamOf a
    some (.program (markCell (slotBase seg st.slotSize slot)) j.task.work.programTiming, .mark a seg slot)
  | .guardAttempt second => some (.fuseCell (if second then .cellB else .cellA), .guardFix second)
  | .bankMarker second =>
    some (.fuseBytes (if second then .bankB else .bankA) (bankBytes j.task.work.profiles), .bankContents second)
  | .labelMarker bytes => some (.fuseBytes .label (labelBytes bytes), .labelContents bytes)
  | _ => none

/-- In RESETTING an operation has ended: the second of its unit follows if it verified, and nothing else (R168). -/
def State.drainEnds (s : State) (j : Job) (ok : Bool) : State :=
  match unitPartner j with
  | some (op, stage) => if ok then s.begin j.task op stage else { s with job := none }
  | none => { s with job := none }

/-- The operation in progress ends: what it leaves stands, then its owner goes on, or the drain does. -/
def State.operationEnds (s : State) (j : Job) (rb : ReadBack) (tripped : Bool) : State :=
  let s' := s.land j.op rb tripped
  let ok := s'.verified j.op rb && !tripped
  if s'.dev = .resetting then s'.drainEnds j ok else s'.stageEnds j ok tripped

end Sys2Proof.Machine
end

