-- ==== Sys2Proof/Machine/Mount.lean ====
section
/-! DEFINITION. The mount (R64, R76, R171 to R173), and what resets do to the state (R45, R167, R168, R170, R175). -/

namespace Sys2Proof.Machine

/-! ### Finding the catalogue (R64) -/

/-- Of two valid catalogue segments the one with the newer image; between equal generations the choice is the
device's own (log 12). -/
def newerOf (segs : List CatSegment) (i j : Nat) : Nat :=
  let gi := (catSegAt segs i).generation.getD 0
  let gj := (catSegAt segs j).generation.getD 0
  if gi < gj then j else if gj < gi then i else if Config.firstIsNewer i j then i else j

/-- The catalogue segment with the newest valid image, if there is one (R64). -/
def newestImage (segs : List CatSegment) : Option Nat :=
  match (List.range firstData).filter (fun k => (catSegAt segs k).valid) with
  | [] => none
  | k :: ks => some (ks.foldl (newerOf segs) k)

/-- Apply the entries of the positions in order, passing over spent ones (R64). -/
def applyPositions (t : Tables) (ps : List Position) : Tables :=
  ps.foldl (fun acc p => match p with
    | .entry e => applyEntry acc e
    | .spent _ => acc) t

/-- What steps 2 and 3 of the mount establish: the tables, the catalogue position and the outcome (R64, R171). A catalogue
area that reads erased is fresh, also where a FORMAT in FAULTED, cut off before a validity mark, has left it so (R64 and
R171 against R174; DEDUCED, log 54). -/
def rebuild (segs : List CatSegment) : Tables × CatPosition × MountOutcome :=
  match newestImage segs with
  | some k =>
    let c := catSegAt segs k
    (applyPositions (c.image.getD Tables.fresh) c.positions,
      ⟨some k, usedPositions c.positions, c.generation.getD 0, false⟩, .image)
  | none =>
    (Tables.fresh, CatPosition.fresh,
      if segs.all CatSegment.readsErased then .fresh else .faulted)

/-! ### Recovering the streams (R76, R172) -/

/-- A stream completed from its newest segment: next, write position and cursor (R76). With an empty list the write
position is without meaning and is held at 0 (DESIGN CHOICE, log 46). A closure that no suspect entry recorded is not kept
(DEDUCED, log 42). -/
def recoverStream (flash : List Host.Cell) (st : Stream) : Stream :=
  if st.state = .absent then st
  else
    match st.newest with
    | none => { st with next := st.recordedNext, writePos := 0, closed := false, cursor := st.oldest }
    | some l =>
      { st with
        next := l.firstSeq + (committedSlots flash l.seg st.slotSize).length
        writePos := usedSlots flash l.seg st.slotSize
        closed := false
        cursor := st.oldest }

/-- The segment of a stream's torn record: the stream is OPEN or SEALED and the last used slot of its newest segment is
a void (R172). -/
def tornSegment (flash : List Host.Cell) (st : Stream) : Option Nat :=
  match st.newest with
  | none => none
  | some l =>
    if st.state ≠ .absent ∧ 0 < st.writePos ∧
        readByte flash (slotBase l.seg st.slotSize (st.writePos - 1) + markOffset) ≠ commitMark then some l.seg
    else none

/-- The TORN_RECORD events of a mount from stream `id` on (R172). -/
def tornEvents (flash : List Host.Cell) (st : Stamp) : Nat → List Stream → List Raised
  | _, [] => []
  | id, x :: rest =>
    match tornSegment flash x with
    | none => tornEvents flash st (id + 1) rest
    | some seg => raised .tornRecord st id seg :: tornEvents flash st (id + 1) rest

/-- The FREE segments whose descriptor page is not fully erased, in rising index (R64). -/
def unrecordedSegments (t : Tables) (flash : List Host.Cell) : List Nat :=
  (describedSegments flash).filter (fun i => (t.seg i).state == .free)

/-- One segment becomes DIRTY and joins the end of the dirty list (R51, R54). -/
def Tables.addDirty (t : Tables) (i : Nat) : Tables :=
  { t.setSeg i { t.seg i with state := .dirty, suspect := false } with dirty := t.dirty ++ [i] }

/-- Data segments held FREE whose descriptor page is not erased become DIRTY, after all others (R54, R64). No entry
records it; the image of the next compaction does (DESIGN CHOICE, log 50). -/
def dirtyUnrecorded (t : Tables) (flash : List Host.Cell) : Tables :=
  (unrecordedSegments t flash).foldl Tables.addDirty t

/-! ### Steps 1 to 5 of the mount (R171, R172, R173) -/

/-- Steps 1 to 5 of the mount, in one step of the model (log 22), from a state whose event list and alarms the
reset has emptied. Nothing is programmed or erased. A wait for the array left over from a wake is dropped (DESIGN
CHOICE, log 43), and the fallback flag is cleared here and not when a RESET acts (DESIGN CHOICE, log 44). A guard-fix cell
found failed latches nothing (DEDUCED, log 48). -/
def State.mountStart (s : State) : State :=
  let r := rebuild s.catSegs
  let tables := { r.1 with streams := r.1.streams.map (recoverStream s.flash) }
  let torn := if r.2.2 = MountOutcome.image then tornEvents s.flash s.stamp 0 tables.streams else []
  let faults := s.fuses.faults s.stamp
  let s' := { s with
    dev := .mounting
    sleepPending := false
    ready := true
    job := none
    reclaimPaused := false
    reconsider := false
    poolLow := false
    poolLowArmed := true
    mountOutcome := r.2.2
    mountSampled := false
    tornFound := torn.length
    faultedProfile := none
    tickPeriod := if r.2.2 = MountOutcome.faulted then 10 else r.1.settings.tickPeriod.toNat
    alarms := s.alarms ||| (if faults.isEmpty then 0 else alarmFuseFault) ||| (if torn.isEmpty then 0 else alarmTornFound)
    committed := {
      tables := if r.2.2 = MountOutcome.faulted then Tables.fresh else dirtyUnrecorded tables s.flash
      cat := r.2.1
      sample := Sample.initial
      profiles := s.fuses.loadTable.1
      activeProfile := 0
      fuse := s.fuses.copies } }
  s'.recordAll (faults ++ torn)

/-! ### Steps 6 to 10 (R173) -/

/-- The mount still waits for its first sample from the external sensor (R114, R173, log 39). -/
def State.mountAwaitsSensor (s : State) : Bool :=
  s.dev == .mounting && !s.resetLow && !s.mountSampled && s.committed.activeSource == .external

/-- The mount's sample: an outcome applied to the committed state, its events recorded at once (R173, R181). -/
def State.absorbMount (s : State) (r : Committed × List Raised) : State :=
  { s with committed := r.1, mountSampled := true }.recordAll r.2

/-- Step 6 and 7 for the sources that need no bus (R114, R118, R173). -/
def State.mountSample (s : State) (env : Env) : State :=
  if !s.mountSampled && s.committed.activeSource == .internal then
    s.absorbMount (internalAttempt s.committed s.stamp env)
  else s

/-- The read-only condition as the mount evaluates it (R63). -/
def mountReadOnly (c : Committed) : Bool :=
  c.tables.usableCount == 1 && c.cat.active.isSome && decide (cataloguePositions - c.cat.fill < 8)

/-- Step 8: the read-only condition, degradation, the pool level (R62, R63, R64, R66, R173). -/
def State.mountConditions (s : State) : State :=
  let s1 := { s with committed := { s.committed with cat := { s.committed.cat with readOnly := mountReadOnly s.committed } } }
  let s2 := if s1.committed.tables.usableCount = 1 then
      (s1.latch alarmCatalogueDegraded).record (raised .catalogueDegraded s1.stamp 1 0xFFFFFFFF)
    else s1
  s2.comparePool

/-- The outcome in the upper half of MOUNTED's detail B (R173). -/
def MountOutcome.code : MountOutcome → Nat
  | .image => 0
  | .fresh => 1
  | .faulted => 2

/-- The streams MOUNTED counts: 0 for a fresh or faulted mount (R173). -/
def State.mountedStreams (s : State) : Nat :=
  if s.mountOutcome = .image then s.committed.tables.liveStreams else 0

/-- Steps 9 and 10: MOUNTED, then RUNNING or FAULTED (R173), where the profile as selected now is the one shown (R177). -/
def State.mountEnd (s : State) : State :=
  let s' := s.record (raised .mounted s.stamp s.tornFound (s.mountOutcome.code * 65536 + s.mountedStreams))
  { s' with
    dev := if s.mountOutcome = .faulted then .faulted else .running
    faultedProfile := if s.mountOutcome = .faulted then some s.committed.activeProfile else none }

/-- Steps 6 to 10 of the mount; step 8 is passed by when it ends in FAULTED (R173, figure 9-1). -/
def State.mountFinish (s : State) (env : Env) : State :=
  let s1 := s.mountSample env
  if s1.mountOutcome = .faulted then s1.mountEnd else s1.mountConditions.mountEnd

/-! ### Resets -/

/-- The Request Manager is left empty by every reset (R45). -/
def State.emptyRequests (s : State) : State :=
  { s with
    contexts := List.replicate contextCount .free
    nextAcceptance := 0
    nextCompletion := 0
    offered := none
    echo := none
    armLatch := none }

/-- The link statistics are set to 0 (R18, R19, R22). -/
def State.clearLinkStats (s : State) : State :=
  { s with frameErrors := 0, incompleteFrames := 0, unknownLeads := 0 }

/-- The time restarts: the counter at 0, TIME_UNSET set, counting at 10 ms (R163, R164). -/
def State.restartTime (s : State) : State := { s with tick := 0, timeUnset := true, tickPeriod := 10 }

/-- The event list, its numbering, the overflow counter and the alarms are cleared (R168, R170, R175). -/
def State.clearReports (s : State) : State :=
  { s with events := [], nextEvent := 0, overflow := 0, alarms := 0 }

/-- The transaction decoder when an open assertion stops being one (R22, R160). -/
def State.cutTransaction (s : State) : Txn :=
  if s.csLow then
    match s.txn with
    | .lead b _ => .noTransaction (some b)
    | .noTransaction l => .noTransaction l
    | .idle | .presence _ | .ended => .noTransaction none
  else .idle

/-- Both lines of the sensor bus are released, without a STOP (R117, R168, R170). -/
def State.releaseBus (s : State) : State := { s with sensorLog := [.release] }

/-- A sensor attempt in progress is cut off: one of the work in progress, or the mount's (R168, R170). -/
def State.cutAttempt (s : State) : State :=
  match s.job with
  | none => if s.mountAwaitsSensor then s.releaseBus else s
  | some j => if j.op = .sensor then s.releaseBus else s

/-- What a hardware reset leaves of an operation in progress (R170). An entry whose program had not finished and
verified is never one the mount applies (R60), and a mark counts by what it reads (R61, R174). -/
def State.stopOperation (s : State) (rb : ReadBack) : State :=
  match s.job with
  | none => s
  | some j => { s.land j.op rb j.op.failsWhenStopped with job := none }

/-- A hardware reset stops everything at once (R22, R45, R170). -/
def State.hardwareStop (s : State) (rb : ReadBack) : State :=
  let s' := (s.cutAttempt.stopOperation rb).emptyRequests.clearLinkStats.restartTime.clearReports
  { s' with
    resetLow := true
    txn := s'.cutTransaction
    sdo := .highZ
    resetArm := false
    sleepPending := false
    reclaimPaused := false
    reconsider := false }

/-- The work in progress when a software reset acts: programs go on to their end, erases and sensor attempts
are abandoned at once (R168). -/
def State.beginDrain (s : State) (rb : ReadBack) : State :=
  match s.job with
  | none => s
  | some j =>
    if j.op.isErase then { s.land j.op rb false with job := none }
    else if j.op = .sensor then { s with job := none }
    else s

/-- A RESET that acts (R18, R167). -/
def State.softwareReset (s : State) (rb : ReadBack) : State :=
  let s' := (s.cutAttempt.beginDrain rb).emptyRequests.clearLinkStats.restartTime
  { s' with
    dev := .resetting
    resetArm := false
    sleepPending := false
    reclaimPaused := false
    reconsider := false }

/-- The end of the drain: reports are emptied and the mount starts (R168). -/
def State.drainDone (s : State) : State := s.clearReports.mountStart

end Sys2Proof.Machine
end

