-- ==== Sys2Proof/Machine/Replies.lean ====
section
/-! DEFINITION. The immediate requests: each gives the state after it, its status and its payload, from committed
state (R34, R35, R36). -/

namespace Sys2Proof.Machine

/-- What an immediate request gives: the state after it, its status and its payload (R34). -/
abbrev Answer := State × Status × List Byte

/-- A refusal changes no state and carries an empty payload (R35). -/
def State.declines (s : State) (st : Status) : Answer := (s, st, [])

/-- GET_IDENTITY (R153). -/
def identityReply (f : FuseCopies) : List Byte :=
  f.identity ++ [flagByte (!f.identityOk),
    if f.guardA = .blown then 0x01 else if f.guardB = .blown then 0x02 else 0x00,
    f.bank.code, f.origin.code, f.labelState.code] ++ f.label

/-- GET_IDENTITY (R153). -/
def State.answerIdentity (s : State) (params : List Byte) : Answer :=
  match parseEmpty params with
  | none => s.declines .badParam
  | some () => (s, .ok, identityReply s.committed.fuse)

/-- The 18-byte payload of GET_SETTINGS (R157). -/
def settingsReply (c : Committed) : List Byte :=
  let st := c.tables.settings
  be16 (if c.fuse.guardFixed then 2 else st.guardMode.toNat)
    ++ ([2, 3, 4, 5, 6, 7, 8, 9].flatMap (fun code => be16 (st.get code).toNat))

/-- GET_SETTINGS (R157). -/
def State.answerSettings (s : State) (params : List Byte) : Answer :=
  match parseEmpty params with
  | none => s.declines .badParam
  | some () => (s, .ok, settingsReply s.committed)

/-- The options byte of R77 and R86. -/
def Stream.optionsByte (st : Stream) : Byte := byteOf (field st.timeOption 0 + field st.tempOption 1)

/-- A segment index of STREAM_INFO, FFFFh when the list is empty (R86). -/
def segmentField (l : Option SegLink) : List Byte :=
  match l with
  | none => be16 0xFFFF
  | some x => be16 x.seg

/-- The 44-byte payload for one stream (R86). -/
def streamReply (t : Tables) (id : Nat) : List Byte :=
  let st := t.stream id
  if st.state = .absent then byteOf id :: List.replicate 43 0x00
  else
    [byteOf id, st.state.code] ++ be16 st.slotSize ++ [st.retention.code] ++ be16 st.quota
      ++ [st.optionsByte, flagByte st.hold, flagByte st.label.isSome] ++ st.label.getD (List.replicate 8 0x00)
      ++ be32 st.start ++ be32 st.oldest ++ be32 st.next ++ be32 st.cursor ++ be16 st.segs.length
      ++ segmentField st.segs.head? ++ segmentField st.newest ++ be16 (t.freeSlots st) ++ be16 st.maxPayload

/-- The 10-byte entry of one stream in the summary (R87). -/
def summaryEntry (t : Tables) (id : Nat) : List Byte :=
  let st := t.stream id
  if st.state = .absent then byteOf id :: List.replicate 9 0x00
  else [byteOf id, st.state.code, st.retention.code, flagByte st.hold] ++ be32 (st.next - st.oldest)
    ++ be16 st.segs.length

/-- STREAM_INFO (R86, R87). -/
def State.answerStreamInfo (s : State) (params : List Byte) : Answer :=
  match parseStreamInfo params with
  | none => s.declines .badParam
  | some (.one id) => (s, .ok, streamReply s.committed.tables id)
  | some .all => (s, .ok, (List.range streamCount).flatMap (summaryEntry s.committed.tables))

/-- The smallest of a list of counts, FFFFFFFFh of none (R67). -/
def lowestCount : List Nat → Nat
  | [] => 0xFFFFFFFF
  | x :: rest => rest.foldl min x

/-- The largest of a list of counts, FFFFFFFFh of none (R67). -/
def highestCount : List Nat → Nat
  | [] => 0xFFFFFFFF
  | x :: rest => rest.foldl max x

/-- The 21-byte payload of POOL_INFO (R67). -/
def poolReply (c : Committed) : List Byte :=
  let t := c.tables
  be16 (t.countSegs .free) ++ be16 (t.countSegs .dirty) ++ be16 (t.countSegs .linked) ++ be16 (t.countSegs .retired)
    ++ [byteOf t.usableCount] ++ be32 (lowestCount t.liveEraseCounts) ++ be32 (highestCount t.liveEraseCounts)
    ++ be16 c.cat.fill ++ be16 cataloguePositions

/-- POOL_INFO (R67). -/
def State.answerPoolInfo (s : State) (params : List Byte) : Answer :=
  match parseEmpty params with
  | none => s.declines .badParam
  | some () => (s, .ok, poolReply s.committed)

/-- READ_PROFILES (R127). -/
def State.answerProfiles (s : State) (params : List Byte) : Answer :=
  match parseEmpty params with
  | none => s.declines .badParam
  | some () => (s, .ok, tableBytes s.committed.profiles ++
      [byteOf s.committed.activeProfile, s.committed.fuse.bank.code, s.committed.fuse.origin.code])

/-- The 13 bytes of one event (R182). -/
def eventBytes (e : Event) : List Byte :=
  be16 e.number.toNat ++ [byteOf e.what.kind.code] ++ be32 e.what.stamp.tick.toNat
    ++ [flagByte e.what.stamp.unset, e.what.detailA] ++ be32 e.what.detailB.toNat

/-- READ_EVENTS (R182). -/
def State.answerReadEvents (s : State) (params : List Byte) : Answer :=
  match parseReadEvents params with
  | none => s.declines .badParam
  | some n =>
    (s, .ok, [byteOf (min n s.events.length), byteOf s.events.length, s.overflow]
      ++ (s.events.take n).flatMap eventBytes)

/-- RELEASE_EVENTS (R183). -/
def State.answerReleaseEvents (s : State) (params : List Byte) : Answer :=
  match parseReleaseEvents params with
  | none => s.declines .badParam
  | some (n, clear) =>
    let left := s.events.drop n
    let overflow := if clear then 0 else s.overflow
    ({ s with events := left, overflow := overflow }, .ok,
      [byteOf (s.events.length - left.length), byteOf left.length, overflow])

/-- CLEAR_ALARMS, which latches CATALOGUE_DEGRADED again while RUNNING with a usable count of 1 (R179). -/
def State.answerClearAlarms (s : State) (params : List Byte) : Answer :=
  match parseClearAlarms params with
  | none => s.declines .badParam
  | some mask =>
    let cleared := s.alarms &&& ~~~mask
    let after := if s.dev = .running ∧ s.committed.tables.usableCount = 1 then cleared ||| alarmCatalogueDegraded
      else cleared
    ({ s with alarms := after }, .ok, [s.alarms.zeroExtend 8, after.zeroExtend 8])

/-- LINK_STATS (R20). -/
def State.answerLinkStats (s : State) (params : List Byte) : Answer :=
  match parseEmpty params with
  | none => s.declines .badParam
  | some () => (s.clearLinkStats, .ok, [s.frameErrors, s.incompleteFrames, s.unknownLeads])

/-- GET_TIME (R166). -/
def State.answerGetTime (s : State) (params : List Byte) : Answer :=
  match parseEmpty params with
  | none => s.declines .badParam
  | some () => (s, .ok, be32 s.tick.toNat ++ [flagByte s.timeUnset] ++ be16 s.tickPeriod)

/-- SET_TIME, with GUARD# sampled after the parameter check (R132, R165). -/
def State.answerSetTime (s : State) (params : List Byte) (guardHigh : Bool) : Answer :=
  match parseSetTime params with
  | none => s.declines .badParam
  | some v =>
    if s.committed.guardEngaged guardHigh then s.declines .guarded
    else ({ s with tick := v, timeUnset := false }, .ok, be32 s.tick.toNat ++ [flagByte s.timeUnset])

/-- ARM (R140). -/
def State.answerArm (s : State) (params : List Byte) : Answer :=
  match parseArm params with
  | none => s.declines .badParam
  | some pair => ({ s with armLatch := some pair }, .ok, [pair.kind.code, pair.id])

/-- The acceptance number of a QUEUED context that an ABORT matches (R43). -/
def abortMatch (form : AbortForm) (c : Context) : Option Nat :=
  match form, c with
  | .all, .held r .queued => some r.acceptance
  | .tag t, .held r .queued => if r.tag = t then some r.acceptance else none
  | _, _ => none

/-- One QUEUED context that matches, the one accepted first, goes to DONE with status ABORTED (R43). -/
def State.abortOne (s : State) (form : AbortForm) : Option State :=
  match lowestBy (abortMatch form) s.contexts 0 none with
  | none => none
  | some (i, _) =>
    match s.contexts.getD i .free with
    | .held r _ => some (s.finish i r .aborted [])
    | .free => none

/-- Every matching QUEUED context is aborted, in increasing acceptance order; how many were (R43). -/
def State.abortAll (form : AbortForm) : Nat → State → State × Nat
  | 0, s => (s, 0)
  | fuel + 1, s =>
    match s.abortOne form with
    | none => (s, 0)
    | some s' =>
      let r := State.abortAll form fuel s'
      (r.1, r.2 + 1)

/-- ABORT (R43, R44). -/
def State.answerAbort (s : State) (params : List Byte) : Answer :=
  match parseAbort params with
  | none => s.declines .badParam
  | some form =>
    let r := State.abortAll form contextCount s
    (r.1, .ok, [byteOf r.2])

/-- An immediate request is carried out against committed state (R34); a media kind never comes here. -/
def State.answer (s : State) (k : Kind) (params : List Byte) (env : Env) : Answer :=
  match k with
  | .getIdentity => s.answerIdentity params
  | .getSettings => s.answerSettings params
  | .streamInfo => s.answerStreamInfo params
  | .poolInfo => s.answerPoolInfo params
  | .readProfiles => s.answerProfiles params
  | .readEvents => s.answerReadEvents params
  | .releaseEvents => s.answerReleaseEvents params
  | .clearAlarms => s.answerClearAlarms params
  | .linkStats => s.answerLinkStats params
  | .getTime => s.answerGetTime params
  | .setTime => s.answerSetTime params env.guardHigh
  | .arm => s.answerArm params
  | .abort => s.answerAbort params
  | .read | .readNext | .seek | .sampleTemperature | .setTemperature | .writeProfile | .append | .trim
  | .createStream | .deleteStream | .sealStream | .setHold | .clearHold | .format | .setOption | .commitProfiles
  | .setOwnerLabel | .fixGuard => s.declines .badParam

end Sys2Proof.Machine
end

