-- ==== Sys2Proof/Machine/Requests.lean ====
section
/-! DEFINITION. Intake: what the Request Manager does with a complete SUBMIT frame (R10, R11, R27 to R34, R141). -/

namespace Sys2Proof.Machine

/-- The kinds a device in FAULTED takes in (R28). -/
def Kind.allowedFaulted : Kind → Bool
  | .getIdentity | .readEvents | .releaseEvents | .clearAlarms | .linkStats | .arm | .abort | .format => true
  | _ => false

/-- What the device state says of a kind byte, if it forbids intake (R28). -/
def State.intakeState (s : State) (kind : Option Kind) : Option Intake :=
  match s.dev with
  | .running => if s.sleepPending then some .notReady else none
  | .mounting | .resetting | .deepSleep => some .notReady
  | .faulted =>
    match kind with
    | some k => if k.allowedFaulted then none else some .deviceFault
    | none => some .deviceFault

/-- Steps 2 to 7 of the intake order, for an intact frame (R27). -/
def State.intake (s : State) (kind : Option Kind) (tag : Byte) : Intake :=
  match s.intakeState kind with
  | some code => code
  | none =>
    match kind with
    | none => .unknownKind
    | some k =>
      if s.contexts.any (Context.hasTag tag) then .tagInUse
      else if freeCount s.contexts = 0 then .noContext
      else if k.isMedia = true ∧ maxMedia ≤ mediaCount s.contexts then .queueFull
      else .accepted

/-- The arm latch holds the pair that a request of this kind and parameters needs (R141). -/
def armMatches (latch : Option ArmPair) (k : Kind) (params : List Byte) : Bool :=
  match latch with
  | none => false
  | some p => k.isArmed && p.kind == k && (k != .deleteStream || params.head? == some p.id)

/-- The arm latch at acceptance, before the request executes or is queued (R141). -/
def latchAfter (latch : Option ArmPair) (k : Kind) : Option ArmPair := if k = .arm then latch else none

/-- The accepted request as its context keeps it (R23, R32). -/
def State.newRequest (s : State) (k : Kind) (tag : Byte) (params : List Byte) : Request :=
  ⟨tag, k, params, armMatches s.armLatch k params, s.nextAcceptance⟩

/-- The latch handled and the acceptance number used (R25, R141). -/
def State.takeIn (s : State) (k : Kind) : State :=
  { s with armLatch := latchAfter s.armLatch k, nextAcceptance := s.nextAcceptance + 1 }

/-- An accepted request: a media request enters QUEUED, an immediate one executes and enters DONE (R32, R34). -/
def State.accept (s : State) (k : Kind) (tag : Byte) (params : List Byte) (env : Env) : State :=
  match firstFree s.contexts with
  | none => s
  | some i =>
    let r := s.newRequest k tag params
    let s' := s.takeIn k
    if k.isMedia then { s' with contexts := s'.contexts.set i (.held r .queued) }
    else
      let a := s'.answer k params env
      a.1.finish i r a.2.1 a.2.2

/-- The state after the intake decision for an intact frame, and its code (R27, R32, R33). -/
def State.takeDecision (s : State) (kind tag : Byte) (params : List Byte) (env : Env) : State × Intake :=
  match kindOf kind with
  | some k =>
    let code := s.intake (some k) tag
    (if code = .accepted then s.accept k tag params env else s, code)
  | none => (s, s.intake none tag)

/-- The bytes the check of a request frame covers (R7). -/
def frameBytes (kind tag : Byte) (params : List Byte) : List Byte := kind :: tag :: be16 params.length ++ params

/-- A frame error on the link (R8, R10). It latches LINK_ERROR_SEEN in whatever state, and a PEEK in RESETTING or MOUNTING
shows it from then on (R10, R169, R178 against R177; DEDUCED, log 55). -/
def State.frameError (s : State) : State :=
  { s with frameErrors := satInc s.frameErrors }.latch alarmLinkError

/-- The decision's bytes: turnaround, intake code, free contexts (R11). -/
def State.driveIntake (s : State) (code : Intake) : State :=
  { s with txn := .ended, sdo := .drive [0xFF, code.code, byteOf (freeCount s.contexts)] 0xFF }

/-- A complete frame whose check is as it should be, inside an open SUBMIT (R11). -/
def State.submitIntact (s : State) (kind tag : Byte) (params : List Byte) (env : Env) : State :=
  let d := s.takeDecision kind tag params env
  d.1.driveIntake d.2

/-- A length above 520 (R8): FRAME_ERROR in every position until CS# rises. -/
def State.submitOverLong (s : State) : State :=
  { s.frameError with txn := .ended, sdo := .drive [] Intake.frameError.code }

/-- A complete frame inside an open SUBMIT (R8, R10, R11). -/
def State.submitFrame (s : State) (kind tag : Byte) (params : List Byte) (chk : Half) (env : Env) : State :=
  if maxParams < params.length then s.submitOverLong
  else if check (frameBytes kind tag params) = chk then s.submitIntact kind tag params env
  else s.frameError.driveIntake .frameError

end Sys2Proof.Machine
end

