-- ==== Sys2Proof/Machine/Link.lean ====
section
/-! DEFINITION. The Host Link Unit: the lead point, the end of a transaction, and the meanings of the link's
commands (Chapter 1). A command that carries its own lead byte continues the transaction whose lead byte a
LEAD_BYTE has already brought, and otherwise stands for a new assertion of CS# (log 3). -/

namespace Sys2Proof.Machine

/-! ### The transaction decoder -/

/-- The link decodes: RESET# is high and the device is not asleep (R21, R22). -/
def State.linkDecodes (s : State) : Bool := !s.resetLow && s.dev != .deepSleep

/-- SDO drives these bytes and then FFh, and the rest of the transaction is ignored (R4). -/
def State.endDriving (s : State) (bytes : List Byte) : State :=
  { s with txn := .ended, sdo := .drive bytes 0xFF }

/-- CS# rises: the transaction ends, and one that was still being collected counts as incomplete (R4, R9, R16). -/
def State.csRise (s : State) : State :=
  { s with
    csLow := false
    txn := .idle
    sdo := .highZ
    incompleteFrames :=
      match s.txn with
      | .lead b _ => if s.linkDecodes && framedLead b then satInc s.incompleteFrames else s.incompleteFrames
      | .idle | .presence _ | .ended | .noTransaction _ => s.incompleteFrames }

/-- The frame of a reply and its check (R12). -/
def Reply.frame (r : Reply) : List Byte :=
  let covered := [r.tag, r.kind.code, r.status.code] ++ be16 r.payload.length ++ r.payload
  covered ++ checkBytes covered

/-- The reply a context holds, if it is DONE. -/
def Context.reply? : Context → Option Reply
  | .held r (.done _ status payload) => some ⟨r.tag, r.kind, status, payload⟩
  | .held _ .queued | .held _ .executing | .free => none

/-- What a FETCH drives after its lead byte: the presence byte, and the frame of the reply chosen (R12). -/
def State.fetchBytes (s : State) : List Byte :=
  match nextReply s.contexts with
  | none => [0x00]
  | some i =>
    match (s.contexts.getD i .free).reply? with
    | none => [0x00]
    | some r => 0x01 :: r.frame

/-- What a REFETCH drives after its lead byte (R14). -/
def State.refetchBytes (s : State) : List Byte :=
  match s.echo with
  | none => [0x00]
  | some r => 0x01 :: r.frame

/-- What a PEEK drives after its lead byte: the status word with GUARD# at this level, and its check (R15, R176). -/
def State.peekBytes (s : State) (guardHigh : Bool) : List Byte :=
  let word := be32 (s.statusWord guardHigh s.resetArm).toNat
  word ++ checkBytes word

/-- What SDO drives from the lead point of this transaction on, before FFh in every later position: what a FETCH, a
REFETCH and a PEEK send is fixed there (R4, R5, R12, R14, R15). -/
def State.leadBytes (s : State) (b : Byte) (guardHigh : Bool) : List Byte :=
  if b = 0xA2 then s.fetchBytes else if b = 0xA3 then s.refetchBytes else if b = 0xA4 then s.peekBytes guardHigh else []

/-- CS# falls: the device drives FFh in the lead byte position, and nothing while RESET# is low or in DEEP_SLEEP (R4,
R21, R22). -/
def State.csFall (s : State) : State :=
  { s with
    csLow := true
    leadSdo := if s.linkDecodes then some 0xFF else none
    sdo := if s.linkDecodes then .drive [] 0xFF else .highZ }

/-- CS# has fallen and the lead byte is complete: the lead point, with GUARD# at this level (R4, R5, R6, R12, R15,
R17). In DEEP_SLEEP the byte is only watched (R21); with RESET# low the assertion is no transaction (R22, log 34). -/
def State.leadPoint (s : State) (b : Byte) (guardHigh : Bool) : State :=
  let t := s.csFall
  if s.resetLow then { t with txn := .noTransaction (some b) }
  else if s.dev = .deepSleep then { t with txn := .lead b false }
  else
    { t with
      txn := .lead b s.resetArm
      sdo := .drive (s.leadBytes b guardHigh) 0xFF
      offered := if b = 0xA2 then nextReply s.contexts else none
      guardHigh := if b = 0xA4 then guardHigh else s.guardHigh
      resetArm := false
      unknownLeads := if knownLead b then s.unknownLeads else satInc s.unknownLeads }

/-- A new assertion of CS#, an open one ending first (R4). -/
def State.newTxn (s : State) (b : Byte) (guardHigh : Bool) : State :=
  if s.csLow then s.csRise.leadPoint b guardHigh else s.leadPoint b guardHigh

/-- The transaction of a command that carries this lead byte: the open one, if its lead byte is this and the
rest of it has not arrived or is not decoded, and otherwise a new assertion (log 3). -/
def State.openTxn (s : State) (b : Byte) (guardHigh : Bool := s.guardHigh) : State :=
  match s.txn with
  | .lead l _ => if l = b ∧ s.csLow = true then s else s.newTxn b guardHigh
  | .noTransaction (some l) => if l = b ∧ s.csLow = true then s else s.newTxn b guardHigh
  | .idle | .presence _ | .ended | .noTransaction none => s.newTxn b guardHigh

/-- The reset-arm flag as this transaction sampled it, if the device decodes the transaction (R17, R21, R22). -/
def State.decoding (s : State) : Option Bool :=
  if s.linkDecodes then
    match s.txn with
    | .lead _ sampled => some sampled
    | .idle | .presence _ | .ended | .noTransaction _ => none
  else none

/-- GUARD# as the device finds it; it is not read while RESET# is low nor in DEEP_SLEEP (R161, R170, log 5). -/
def State.observe (s : State) (env : Env) : State :=
  if s.linkDecodes then { s with guardHigh := env.guardHigh } else s

/-! ### Data transactions -/

/-- LEAD_BYTE (R5, R6, R12, R15, R17). -/
def State.doLeadByte (s : State) (l : LeadPoint) : State := s.newTxn l.byte l.guardHigh

/-- UNKNOWN_LEAD: what the lead point did, and FFh until CS# rises (R6). -/
def State.doUnknownLead (s : State) (b : Byte) : State :=
  if knownLead b then s
  else
    let t := s.openTxn b
    match t.decoding with
    | none => t
    | some _ => t.endDriving []

/-- OVER_LONG_FRAME (R8). -/
def State.doOverLong (s : State) (len : Half) : State :=
  if len.toNat ≤ maxParams then s
  else
    let t := s.openTxn 0xA1
    match t.decoding with
    | none => t
    | some _ => t.submitOverLong

/-- INCOMPLETE_FRAME: CS# rises before the frame or the complement is complete (R9, R16). -/
def State.doIncomplete (s : State) (b : Byte) : State :=
  if framedLead b then (s.openTxn b).csRise else s

/-- SUBMIT (R8, R10, R11). -/
def State.doSubmit (s : State) (kind tag : Byte) (params : List Byte) (chk : Half) (env : Env) : State :=
  let t := s.openTxn 0xA1
  match t.decoding with
  | none => t
  | some _ => t.submitFrame kind tag params chk env

/-- FETCH: the choice made at the lead point stands, and SDO drives it (R12, R42). -/
def State.doFetch (s : State) : State :=
  let t := s.openTxn 0xA2
  match t.decoding with
  | none => t
  | some _ =>
    match t.offered with
    | none => { t with txn := .ended }
    | some i => { t with txn := .presence i }

/-- The bytes SDO still has to drive once one more position has passed (R4). -/
def Sdo.next : Sdo → Sdo
  | .highZ => .highZ
  | .drive bytes fill => .drive (bytes.drop 1) fill

/-- The context whose reply the presence byte being shifted out announces, with its FETCH row come or not (R13). -/
def State.announced (s : State) : Option Nat :=
  match s.txn with
  | .presence i => some i
  | .lead b _ => if b = 0xA2 then s.offered else none
  | .idle | .ended | .noTransaction _ => none

/-- REPLY_DELIVERY: the echo buffer is replaced and the context becomes FREE (R13, R42). -/
def State.doDelivery (s : State) : State :=
  if s.linkDecodes then
    match s.announced with
    | some i =>
      match (s.contexts.getD i .free).reply? with
      | none => s
      | some r =>
        { s with echo := some r, contexts := s.contexts.set i .free, txn := .ended, sdo := s.sdo.next }
    | none => s
  else s

/-- REFETCH: what the lead point took from the echo buffer (R14). -/
def State.doRefetch (s : State) : State :=
  let t := s.openTxn 0xA3
  match t.decoding with
  | none => t
  | some _ => { t with txn := .ended }

/-- PEEK: the status word captured at the lead point, and its check (R15, R17, R131, R176). -/
def State.doPeek (s : State) (env : Env) : State :=
  let t := s.openTxn 0xA4 env.guardHigh
  match t.decoding with
  | none => t
  | some _ => { t with txn := .ended }

/-! ### Control transactions (R16) -/

/-- The result bytes of R16. -/
def resultDone : Byte := 0x00
/-- REFUSED (R16). -/
def resultRefused : Byte := 0x01
/-- IGNORED (R16). -/
def resultIgnored : Byte := 0x02

/-- A control transaction whose complement byte has arrived: with the right one it takes effect at once and
drives its result, with a wrong one it counts as an unknown lead (R16). -/
def State.control (s : State) (lead complement : Byte) (act : State → Bool → State × Byte) : State :=
  let t := s.openTxn lead
  match t.decoding with
  | none => t
  | some sampled =>
    if complement = ~~~lead then
      let r := act t sampled
      r.1.endDriving [r.2]
    else { t with unknownLeads := satInc t.unknownLeads }.endDriving []

/-- The decision of a SLEEP (R159, R160). -/
def State.sleepAct (s : State) : State × Byte :=
  if s.dev = .running then
    if s.sleepPending then (s, resultIgnored)
    else if anyOutstanding s.contexts then (s, resultRefused)
    else ({ s with armLatch := none, sleepPending := true }, resultDone)
  else (s, resultRefused)

/-- SLEEP (R159, R160). -/
def State.doSleep (s : State) (complement : Byte) : State :=
  s.control 0xC1 complement (fun t _ => t.sleepAct)

/-- A WAKE that ends DEEP_SLEEP (R162). -/
def State.wakeUp (s : State) : State :=
  { s with
    dev := .running
    timeUnset := true
    ready := false
    committed := { s.committed with sample := { s.committed.sample with dueMark := true } }
    txn := .ended
    sdo := .highZ }

/-- A WAKE in DEEP_SLEEP: with a wrong complement, or in an assertion that began before the entry, nothing
happens (R21, R160, R162). -/
def State.wakeAsleep (s : State) (complement : Byte) : State :=
  let t := s.openTxn 0xC2
  match t.txn with
  | .lead _ _ => if complement = 0x3D then t.wakeUp else { t with txn := .ended }
  | .idle | .presence _ | .ended | .noTransaction _ => t

/-- WAKE (R162). -/
def State.doWake (s : State) (complement : Byte) : State :=
  if s.dev = .deepSleep ∧ s.resetLow = false then s.wakeAsleep complement
  else s.control 0xC2 complement (fun t _ => (t, resultIgnored))

/-- RESET_ARM (R17). -/
def State.doResetArm (s : State) (complement : Byte) : State :=
  s.control 0xC3 complement (fun t _ => ({ t with resetArm := true }, resultDone))

/-- RESET (R18, R167). -/
def State.doReset (s : State) (complement : Byte) (rb : ReadBack) : State :=
  s.control 0xC4 complement (fun t sampled =>
    if sampled then (t.softwareReset rb, resultDone) else (t, resultRefused))

/-- TRANSACTION_END (R4). -/
def State.doTransactionEnd (s : State) : State := s.csRise

end Sys2Proof.Machine
end

