-- ==== Sys2Proof/Machine/Power.lean ====
section
/-! DEFINITION. The power, reset, time, engine and sensor events: what each does to the state (Chapters 3, 6
and 9). An event that the state has no place for changes nothing (log 2). -/

namespace Sys2Proof.Machine

/-! ### Sleep (R160, R162) -/

/-- Sleep pending with no background operation in progress: the entry may come (R160). -/
def State.mayEnterSleep (s : State) : Bool :=
  s.dev == .running && s.sleepPending && s.job.isNone && !s.resetLow

/-- Entry to DEEP_SLEEP (R17, R160): an open transaction is cut off, counting nothing. -/
def State.enterSleep (s : State) : State :=
  { s with dev := .deepSleep, sleepPending := false, resetArm := false, txn := s.cutTransaction, sdo := .highZ }

/-- ENTER_DEEP_SLEEP (R160). -/
def State.doEnterDeepSleep (s : State) : State := if s.mayEnterSleep then s.enterSleep else s

/-- WAKE_READY: the array and the sensor bus are ready (R162). -/
def State.doWakeReady (s : State) : State :=
  if s.dev = .running ∧ s.resetLow = false then { s with ready := true } else s

/-! ### Resets and the mount -/

/-- DRAIN_END: nothing is in progress any more, so the drain ends (R168). -/
def State.doDrainEnd (s : State) : State :=
  if s.dev = .resetting ∧ s.resetLow = false ∧ s.job = none then s.drainDone else s

/-- HARDWARE_RESET: RESET# is brought low. A pulse shorter than 1 us makes a complete reset or does nothing,
which is the device's own choice at each pulse (R170, log 17). -/
def State.doHardwareReset (s : State) (longPulse : Bool) (rb : ReadBack) : State :=
  if longPulse then s.hardwareStop rb
  else
    let t := { s with freeDraws := s.freeDraws + 1 }
    if Config.shortPulseResets s.freeDraws then t.hardwareStop rb else t

/-- RESET# is high and the mount starts (R170). -/
def State.released (s : State) (rb : ReadBack) : State :=
  { s.hardwareStop rb with resetLow := false }.mountStart

/-- RESET_RELEASE: RESET# rises, or the supply comes up, with RESET# high or still low (R22, R170, log 33). -/
def State.doResetRelease (s : State) (supply : Bool) (rb : ReadBack) : State :=
  if supply then (if s.resetLow then s.hardwareStop rb else s.released rb)
  else (if s.resetLow then s.released rb else s)

/-- MOUNT_COMPLETE: steps 6 to 10, once an external attempt of step 6 has ended (R173, log 39). -/
def State.doMountComplete (s : State) (env : Env) : State :=
  if s.dev = .mounting ∧ s.resetLow = false ∧ s.mountAwaitsSensor = false then (s.observe env).mountFinish env else s

/-! ### Time -/

/-- TICK (R163): the counter stops in DEEP_SLEEP and while RESET# is low. -/
def State.doTick (s : State) : State := if s.linkDecodes then { s with tick := s.tick + 1 } else s

/-- The sample of a committed state one millisecond later (R112). -/
def Committed.aged (c : Committed) : Committed := { c with sample := c.sample.aged }

/-- The sample in the working copy of the work in progress one millisecond later (R112). -/
def Job.aged (j : Job) : Job := { j with task := { j.task with work := j.task.work.aged } }

/-- SAMPLE_AGE_TICK (R112). -/
def State.doSampleAge (s : State) : State :=
  if s.linkDecodes then { s with committed := s.committed.aged, job := s.job.map Job.aged } else s

/-! ### The engine and the Media Manager -/

/-- REQUEST_START (R37). -/
def State.doRequestStart (s : State) (env : Env) : State := (s.observe env).startNext env

/-- ARRAY_OPERATION_COMPLETE and ARRAY_WATCHDOG_TRIP (R47). -/
def State.doArrayEnd (s : State) (rb : ReadBack) (tripped : Bool) : State :=
  match s.job with
  | none => s
  | some j => if j.op.isArray then s.operationEnds j rb tripped else s

/-- FUSE_OPERATION_COMPLETE (R145). -/
def State.doFuseEnd (s : State) (rb : ReadBack) : State :=
  match s.job with
  | none => s
  | some j => if j.op.isFuse then s.operationEnds j rb false else s

/-- BACKGROUND_RECLAIM (R58): the sample is refreshed if due. -/
def State.doBackground (s : State) (env : Env) : State :=
  if s.mayReclaim && !s.reclaimPaused then s.startBackground s.committed.due env else s

/-- RECLAIM_RECONSIDER (R58, R114, R125, log 14): a paused reclaim is looked at again. A due sample is refreshed; of
one that is not due R58 and R114 say otherwise, and the device's own choice stands for both (log 13). -/
def State.doReconsider (s : State) (env : Env) : State :=
  if s.mayReclaim && s.reclaimPaused && (s.committed.due || s.reconsider) then
    if s.committed.due then s.startBackground true env
    else { s with freeDraws := s.freeDraws + 1 }.startBackground (Config.reconsiderRefreshes s.freeDraws) env
  else s

/-! ### The sensor bus -/

/-- A sensor attempt has ended: the work in progress goes on, or the mount has its sample and with it, at once, the
profile of step 7 (R114, R119, R173; DEDUCED, log 45). -/
def State.attemptEnds (s : State) (e : AttemptEnd) (env : Env) : State :=
  match s.job with
  | some j => s.sensorEnds j e env
  | none => s.absorbMount (applyAttempt s.committed s.stamp e env)

/-- An attempt on the sensor bus is in progress (R115). -/
def State.attempting (s : State) : Bool :=
  match s.job with
  | some j => j.op == .sensor
  | none => s.mountAwaitsSensor

/-- The settings an attempt in progress uses: those of its working copy (R115, R154). -/
def State.attemptSettings (s : State) : Settings :=
  match s.job with
  | some j => j.task.work.tables.settings
  | none => s.committed.tables.settings

/-- SENSOR_ATTEMPT (R115, R116, R117). -/
def State.doSensorAttempt (s : State) (run : BusRun) (env : Env) : State :=
  if s.attempting then
    { s with sensorLog := busActs s.attemptSettings run }.attemptEnds (attemptEnd s.attemptSettings run) env
  else s

/-- STRETCH_TIMEOUT (R117): both lines are released without a STOP. -/
def State.doStretchTimeout (s : State) (env : Env) : State :=
  if s.attempting then
    { s with sensorLog := [.release] }.attemptEnds (.failure .stretchTimeout 0) env
  else s

end Sys2Proof.Machine
end

