-- ==== Sys2Proof/Machine/Commands.lean ====
section
/-! DEFINITION. The meanings of the 61 commands. Every command answers a next state, in which ALERT# stands at the
level of R184. -/

namespace Sys2Proof.Machine

/-- The outcome of a command: the state it leaves, with ALERT# driven to its level (R184). -/
def State.outcome (s : State) : Host.Outcome State Fault Refusal := .next s.settle

/-! ### Requests (log 4) -/

/-- A request carried whole: a SUBMIT with its intact frame and the intake decision (R11, R27, R34). -/
def State.doImmediate (s : State) (k : Kind) (tag : Byte) (params : List Byte) (env : Env) : State :=
  let t := s.openTxn 0xA1
  match t.decoding with
  | none => t
  | some _ => if maxParams < params.length then t.submitOverLong else t.submitIntact k.code tag params env

/-- A media request carried whole, which the engine starts at once if it can (R32, R37). -/
def State.doMedia (s : State) (k : Kind) (tag : Byte) (params : List Byte) (env : Env) : State :=
  let t := (s.observe env).openTxn 0xA1
  match t.decoding with
  | none => t
  | some _ =>
    if maxParams < params.length then t.submitOverLong
    else
      let d := t.takeDecision k.code tag params env
      if d.2 = .accepted then (d.1.driveIntake d.2).startNext env else d.1.driveIntake d.2

/-! ### The link -/

/-- LEAD_BYTE (R5, R6, R12, R15, R17). -/
def execLeadByte (lead : LeadPoint) (s : State) : Host.Outcome State Fault Refusal :=
  (s.doLeadByte lead).outcome

/-- UNKNOWN_LEAD (R6). -/
def execUnknownLead (lead : Byte) (s : State) : Host.Outcome State Fault Refusal :=
  (s.doUnknownLead lead).outcome

/-- OVER_LONG_FRAME (R8). Kind and tag are not looked at. -/
def execOverLongFrame (_kind _tag : Byte) (len : Half) (s : State) : Host.Outcome State Fault Refusal :=
  (s.doOverLong len).outcome

/-- INCOMPLETE_FRAME (R9, R16). -/
def execIncompleteFrame (lead : Byte) (s : State) : Host.Outcome State Fault Refusal :=
  (s.doIncomplete lead).outcome

/-- SUBMIT (R10, R11, R27). -/
def execSubmit (kind tag : Byte) (params : List Byte) (chk : Half) (env : Env) (s : State) : Host.Outcome State Fault Refusal :=
  ((s.observe env).doSubmit kind tag params chk env).outcome

/-- FETCH (R12). -/
def execFetch (s : State) : Host.Outcome State Fault Refusal :=
  s.doFetch.outcome

/-- REPLY_DELIVERY (R13, R42). -/
def execReplyDelivery (s : State) : Host.Outcome State Fault Refusal :=
  s.doDelivery.outcome

/-- REFETCH (R14). -/
def execRefetch (s : State) : Host.Outcome State Fault Refusal :=
  s.doRefetch.outcome

/-- PEEK (R15). -/
def execPeek (env : Env) (s : State) : Host.Outcome State Fault Refusal :=
  (s.doPeek env).outcome

/-- TRANSACTION_END (R4). -/
def execTransactionEnd (s : State) : Host.Outcome State Fault Refusal :=
  s.doTransactionEnd.outcome

/-! ### Control transactions -/

/-- SLEEP (R159, R160). -/
def execSleep (complement : Byte) (s : State) : Host.Outcome State Fault Refusal :=
  (s.doSleep complement).outcome

/-- WAKE (R162). -/
def execWake (complement : Byte) (s : State) : Host.Outcome State Fault Refusal :=
  (s.doWake complement).outcome

/-- RESET_ARM (R17). -/
def execResetArm (complement : Byte) (s : State) : Host.Outcome State Fault Refusal :=
  (s.doResetArm complement).outcome

/-- RESET (R18, R167, R168). -/
def execReset (complement : Byte) (readBack : ReadBack) (s : State) : Host.Outcome State Fault Refusal :=
  (s.doReset complement readBack).outcome

/-! ### Power, resets, time -/

/-- ENTER_DEEP_SLEEP (R160). -/
def execEnterDeepSleep (s : State) : Host.Outcome State Fault Refusal :=
  s.doEnterDeepSleep.outcome

/-- WAKE_READY (R162). -/
def execWakeReady (s : State) : Host.Outcome State Fault Refusal :=
  s.doWakeReady.outcome

/-- DRAIN_END (R168). -/
def execDrainEnd (s : State) : Host.Outcome State Fault Refusal :=
  s.doDrainEnd.outcome

/-- HARDWARE_RESET (R170). -/
def execHardwareReset (longPulse : Bool) (readBack : ReadBack) (s : State) : Host.Outcome State Fault Refusal :=
  (s.doHardwareReset longPulse readBack).outcome

/-- RESET_RELEASE (R170 to R172). -/
def execResetRelease (supply : Bool) (readBack : ReadBack) (s : State) : Host.Outcome State Fault Refusal :=
  (s.doResetRelease supply readBack).outcome

/-- MOUNT_COMPLETE (R173). -/
def execMountComplete (env : Env) (s : State) : Host.Outcome State Fault Refusal :=
  (s.doMountComplete env).outcome

/-- TICK (R163). -/
def execTick (s : State) : Host.Outcome State Fault Refusal :=
  s.doTick.outcome

/-- SAMPLE_AGE_TICK (R112). -/
def execSampleAgeTick (s : State) : Host.Outcome State Fault Refusal :=
  s.doSampleAge.outcome

/-! ### The engine, the Media Manager and the sensor bus -/

/-- REQUEST_START (R37, R39). -/
def execRequestStart (env : Env) (s : State) : Host.Outcome State Fault Refusal :=
  (s.doRequestStart env).outcome

/-- ARRAY_OPERATION_COMPLETE (R47). -/
def execArrayOperationComplete (readBack : ReadBack) (s : State) : Host.Outcome State Fault Refusal :=
  (s.doArrayEnd readBack false).outcome

/-- ARRAY_WATCHDOG_TRIP (R47). -/
def execArrayWatchdogTrip (readBack : ReadBack) (s : State) : Host.Outcome State Fault Refusal :=
  (s.doArrayEnd readBack true).outcome

/-- FUSE_OPERATION_COMPLETE (R145). -/
def execFuseOperationComplete (readBack : ReadBack) (s : State) : Host.Outcome State Fault Refusal :=
  (s.doFuseEnd readBack).outcome

/-- BACKGROUND_RECLAIM (R58). -/
def execBackgroundReclaim (env : Env) (s : State) : Host.Outcome State Fault Refusal :=
  ((s.observe env).doBackground env).outcome

/-- RECLAIM_RECONSIDER (R58). -/
def execReclaimReconsider (env : Env) (s : State) : Host.Outcome State Fault Refusal :=
  ((s.observe env).doReconsider env).outcome

/-- SENSOR_ATTEMPT (R115 to R117). -/
def execSensorAttempt (run : BusRun) (env : Env) (s : State) : Host.Outcome State Fault Refusal :=
  ((s.observe env).doSensorAttempt run env).outcome

/-- STRETCH_TIMEOUT (R117). -/
def execStretchTimeout (env : Env) (s : State) : Host.Outcome State Fault Refusal :=
  ((s.observe env).doStretchTimeout env).outcome

/-! ### Immediate requests -/

/-- The inputs of a request that looks at none of them. -/
def State.noInputs (s : State) : Env := ⟨s.guardHigh, 0⟩

/-- GET_IDENTITY (R153). -/
def execGetIdentity (tag : Byte) (params : List Byte) (s : State) : Host.Outcome State Fault Refusal :=
  (s.doImmediate .getIdentity tag params s.noInputs).outcome

/-- GET_SETTINGS (R157). -/
def execGetSettings (tag : Byte) (params : List Byte) (s : State) : Host.Outcome State Fault Refusal :=
  (s.doImmediate .getSettings tag params s.noInputs).outcome

/-- STREAM_INFO (R86, R87). -/
def execStreamInfo (tag : Byte) (params : List Byte) (s : State) : Host.Outcome State Fault Refusal :=
  (s.doImmediate .streamInfo tag params s.noInputs).outcome

/-- POOL_INFO (R67). -/
def execPoolInfo (tag : Byte) (params : List Byte) (s : State) : Host.Outcome State Fault Refusal :=
  (s.doImmediate .poolInfo tag params s.noInputs).outcome

/-- READ_PROFILES (R127). -/
def execReadProfiles (tag : Byte) (params : List Byte) (s : State) : Host.Outcome State Fault Refusal :=
  (s.doImmediate .readProfiles tag params s.noInputs).outcome

/-- READ_EVENTS (R182). -/
def execReadEvents (tag : Byte) (params : List Byte) (s : State) : Host.Outcome State Fault Refusal :=
  (s.doImmediate .readEvents tag params s.noInputs).outcome

/-- RELEASE_EVENTS (R183). -/
def execReleaseEvents (tag : Byte) (params : List Byte) (s : State) : Host.Outcome State Fault Refusal :=
  (s.doImmediate .releaseEvents tag params s.noInputs).outcome

/-- CLEAR_ALARMS (R179). -/
def execClearAlarms (tag : Byte) (params : List Byte) (s : State) : Host.Outcome State Fault Refusal :=
  (s.doImmediate .clearAlarms tag params s.noInputs).outcome

/-- LINK_STATS (R20). -/
def execLinkStats (tag : Byte) (params : List Byte) (s : State) : Host.Outcome State Fault Refusal :=
  (s.doImmediate .linkStats tag params s.noInputs).outcome

/-- GET_TIME (R166). -/
def execGetTime (tag : Byte) (params : List Byte) (s : State) : Host.Outcome State Fault Refusal :=
  (s.doImmediate .getTime tag params s.noInputs).outcome

/-- ARM (R140). -/
def execArm (tag : Byte) (params : List Byte) (s : State) : Host.Outcome State Fault Refusal :=
  (s.doImmediate .arm tag params s.noInputs).outcome

/-- ABORT (R43, R44). -/
def execAbort (tag : Byte) (params : List Byte) (s : State) : Host.Outcome State Fault Refusal :=
  (s.doImmediate .abort tag params s.noInputs).outcome

/-- SET_TIME (R165). -/
def execSetTime (tag : Byte) (params : List Byte) (env : Env) (s : State) : Host.Outcome State Fault Refusal :=
  ((s.observe env).doImmediate .setTime tag params env).outcome

/-! ### Media requests -/

/-- READ (R103 to R106). -/
def execRead (tag : Byte) (params : List Byte) (env : Env) (s : State) : Host.Outcome State Fault Refusal :=
  (s.doMedia .read tag params env).outcome

/-- READ_NEXT (R108). -/
def execReadNext (tag : Byte) (params : List Byte) (env : Env) (s : State) : Host.Outcome State Fault Refusal :=
  (s.doMedia .readNext tag params env).outcome

/-- SEEK (R109). -/
def execSeek (tag : Byte) (params : List Byte) (env : Env) (s : State) : Host.Outcome State Fault Refusal :=
  (s.doMedia .seek tag params env).outcome

/-- SAMPLE_TEMPERATURE (R128). -/
def execSampleTemperature (tag : Byte) (params : List Byte) (env : Env) (s : State) : Host.Outcome State Fault Refusal :=
  (s.doMedia .sampleTemperature tag params env).outcome

/-- SET_TEMPERATURE (R129). -/
def execSetTemperature (tag : Byte) (params : List Byte) (env : Env) (s : State) : Host.Outcome State Fault Refusal :=
  (s.doMedia .setTemperature tag params env).outcome

/-- WRITE_PROFILE (R126). -/
def execWriteProfile (tag : Byte) (params : List Byte) (env : Env) (s : State) : Host.Outcome State Fault Refusal :=
  (s.doMedia .writeProfile tag params env).outcome

/-- APPEND (R92 to R101). -/
def execAppend (tag : Byte) (params : List Byte) (env : Env) (s : State) : Host.Outcome State Fault Refusal :=
  (s.doMedia .append tag params env).outcome

/-- TRIM (R110, R111). -/
def execTrim (tag : Byte) (params : List Byte) (env : Env) (s : State) : Host.Outcome State Fault Refusal :=
  (s.doMedia .trim tag params env).outcome

/-- CREATE_STREAM (R77, R78). -/
def execCreateStream (tag : Byte) (params : List Byte) (env : Env) (s : State) : Host.Outcome State Fault Refusal :=
  (s.doMedia .createStream tag params env).outcome

/-- DELETE_STREAM (R81, R82). -/
def execDeleteStream (tag : Byte) (params : List Byte) (env : Env) (s : State) : Host.Outcome State Fault Refusal :=
  (s.doMedia .deleteStream tag params env).outcome

/-- SEAL_STREAM (R79). -/
def execSealStream (tag : Byte) (params : List Byte) (env : Env) (s : State) : Host.Outcome State Fault Refusal :=
  (s.doMedia .sealStream tag params env).outcome

/-- SET_HOLD (R137). -/
def execSetHold (tag : Byte) (params : List Byte) (env : Env) (s : State) : Host.Outcome State Fault Refusal :=
  (s.doMedia .setHold tag params env).outcome

/-- CLEAR_HOLD (R138). -/
def execClearHold (tag : Byte) (params : List Byte) (env : Env) (s : State) : Host.Outcome State Fault Refusal :=
  (s.doMedia .clearHold tag params env).outcome

/-- FORMAT (R83 to R85). -/
def execFormat (tag : Byte) (params : List Byte) (env : Env) (s : State) : Host.Outcome State Fault Refusal :=
  (s.doMedia .format tag params env).outcome

/-- SET_OPTION (R155, R156). -/
def execSetOption (tag : Byte) (params : List Byte) (env : Env) (s : State) : Host.Outcome State Fault Refusal :=
  (s.doMedia .setOption tag params env).outcome

/-- COMMIT_PROFILES (R149, R150). -/
def execCommitProfiles (tag : Byte) (params : List Byte) (env : Env) (s : State) : Host.Outcome State Fault Refusal :=
  (s.doMedia .commitProfiles tag params env).outcome

/-- SET_OWNER_LABEL (R152). -/
def execSetOwnerLabel (tag : Byte) (params : List Byte) (env : Env) (s : State) : Host.Outcome State Fault Refusal :=
  (s.doMedia .setOwnerLabel tag params env).outcome

/-- FIX_GUARD (R144). -/
def execFixGuard (tag : Byte) (params : List Byte) (env : Env) (s : State) : Host.Outcome State Fault Refusal :=
  (s.doMedia .fixGuard tag params env).outcome

end Sys2Proof.Machine
end

