-- ==== Sys2Proof/Machine/Dispatch.lean ====
section
/-! DEFINITION. One arm per command. -/

namespace Sys2Proof.Machine

def exec (i : Instr) (s : State) : Host.Outcome State Fault Refusal :=
  match i with
  | .leadByte lead => Sys2Proof.Machine.execLeadByte lead s
  | .unknownLead lead => Sys2Proof.Machine.execUnknownLead lead s
  | .overLongFrame kind tag len => Sys2Proof.Machine.execOverLongFrame kind tag len s
  | .incompleteFrame lead => Sys2Proof.Machine.execIncompleteFrame lead s
  | .submit kind tag params chk env => Sys2Proof.Machine.execSubmit kind tag params chk env s
  | .fetch => Sys2Proof.Machine.execFetch s
  | .replyDelivery => Sys2Proof.Machine.execReplyDelivery s
  | .refetch => Sys2Proof.Machine.execRefetch s
  | .peek env => Sys2Proof.Machine.execPeek env s
  | .sleep complement => Sys2Proof.Machine.execSleep complement s
  | .enterDeepSleep => Sys2Proof.Machine.execEnterDeepSleep s
  | .wake complement => Sys2Proof.Machine.execWake complement s
  | .wakeReady => Sys2Proof.Machine.execWakeReady s
  | .resetArm complement => Sys2Proof.Machine.execResetArm complement s
  | .reset complement readBack => Sys2Proof.Machine.execReset complement readBack s
  | .drainEnd => Sys2Proof.Machine.execDrainEnd s
  | .hardwareReset longPulse readBack => Sys2Proof.Machine.execHardwareReset longPulse readBack s
  | .resetRelease supply readBack => Sys2Proof.Machine.execResetRelease supply readBack s
  | .mountComplete env => Sys2Proof.Machine.execMountComplete env s
  | .tick => Sys2Proof.Machine.execTick s
  | .sampleAgeTick => Sys2Proof.Machine.execSampleAgeTick s
  | .requestStart env => Sys2Proof.Machine.execRequestStart env s
  | .arrayOperationComplete readBack => Sys2Proof.Machine.execArrayOperationComplete readBack s
  | .arrayWatchdogTrip readBack => Sys2Proof.Machine.execArrayWatchdogTrip readBack s
  | .fuseOperationComplete readBack => Sys2Proof.Machine.execFuseOperationComplete readBack s
  | .backgroundReclaim env => Sys2Proof.Machine.execBackgroundReclaim env s
  | .reclaimReconsider env => Sys2Proof.Machine.execReclaimReconsider env s
  | .stretchTimeout env => Sys2Proof.Machine.execStretchTimeout env s
  | .getIdentity tag params => Sys2Proof.Machine.execGetIdentity tag params s
  | .getSettings tag params => Sys2Proof.Machine.execGetSettings tag params s
  | .streamInfo tag params => Sys2Proof.Machine.execStreamInfo tag params s
  | .poolInfo tag params => Sys2Proof.Machine.execPoolInfo tag params s
  | .readProfiles tag params => Sys2Proof.Machine.execReadProfiles tag params s
  | .readEvents tag params => Sys2Proof.Machine.execReadEvents tag params s
  | .releaseEvents tag params => Sys2Proof.Machine.execReleaseEvents tag params s
  | .clearAlarms tag params => Sys2Proof.Machine.execClearAlarms tag params s
  | .linkStats tag params => Sys2Proof.Machine.execLinkStats tag params s
  | .getTime tag params => Sys2Proof.Machine.execGetTime tag params s
  | .setTime tag params env => Sys2Proof.Machine.execSetTime tag params env s
  | .arm tag params => Sys2Proof.Machine.execArm tag params s
  | .abort tag params => Sys2Proof.Machine.execAbort tag params s
  | .read tag params env => Sys2Proof.Machine.execRead tag params env s
  | .readNext tag params env => Sys2Proof.Machine.execReadNext tag params env s
  | .seek tag params env => Sys2Proof.Machine.execSeek tag params env s
  | .sampleTemperature tag params env => Sys2Proof.Machine.execSampleTemperature tag params env s
  | .setTemperature tag params env => Sys2Proof.Machine.execSetTemperature tag params env s
  | .writeProfile tag params env => Sys2Proof.Machine.execWriteProfile tag params env s
  | .append tag params env => Sys2Proof.Machine.execAppend tag params env s
  | .trim tag params env => Sys2Proof.Machine.execTrim tag params env s
  | .createStream tag params env => Sys2Proof.Machine.execCreateStream tag params env s
  | .deleteStream tag params env => Sys2Proof.Machine.execDeleteStream tag params env s
  | .sealStream tag params env => Sys2Proof.Machine.execSealStream tag params env s
  | .setHold tag params env => Sys2Proof.Machine.execSetHold tag params env s
  | .clearHold tag params env => Sys2Proof.Machine.execClearHold tag params env s
  | .format tag params env => Sys2Proof.Machine.execFormat tag params env s
  | .setOption tag params env => Sys2Proof.Machine.execSetOption tag params env s
  | .commitProfiles tag params env => Sys2Proof.Machine.execCommitProfiles tag params env s
  | .setOwnerLabel tag params env => Sys2Proof.Machine.execSetOwnerLabel tag params env s
  | .fixGuard tag params env => Sys2Proof.Machine.execFixGuard tag params env s
  | .sensorAttempt run env => Sys2Proof.Machine.execSensorAttempt run env s
  | .transactionEnd => Sys2Proof.Machine.execTransactionEnd s

end Sys2Proof.Machine
end

