-- ==== Sys2Proof/Machine/Step.lean ====
section
/-! DEFINITION. The step: the command that has waited longest is carried out (log 1). -/

namespace Sys2Proof.Machine

/-- Take the command at the front of the queue and carry it out on everything but the queue; with an empty queue
the block idles (log 1). -/
def step (s : State) : Host.Outcome State Fault Refusal :=
  match s.pending with
  | [] => .next s
  | c :: rest => exec c { s with pending := rest }

/-- The state with the command a table word spells at the front of its queue; no word spells one. -/
def State.withFetchWord (s : State) (nbits w : Nat) : State :=
  match decodeTableWord nbits w with
  | none => s
  | some c => { s with pending := c :: s.pending }

end Sys2Proof.Machine
end

