-- ==== Sys2Proof/Safety.lean ====
section
/-! DEFINITION. The terms in which statements about runs speak: when the link and the engine are free, what a
request leaves behind it, what stays as it was, and the invariants every step keeps. -/

namespace Sys2Proof.Machine

/-! ### Conditions on a state -/

/-- The device decodes the link and CS# is high (R4, R21, R22). -/
abbrev LinkIdle (s : State) : Prop := s.resetLow = false ∧ s.dev ≠ .deepSleep ∧ s.csLow = false ∧ s.txn = .idle

/-- Intake passes for any known kind: RUNNING, no sleep pending, the tag unused, a context FREE (R27, R28). -/
abbrev Accepts (s : State) (tag : Byte) : Prop :=
  s.resetLow = false ∧ s.dev = .running ∧ s.sleepPending = false ∧ s.csLow = false ∧ s.txn = .idle ∧
    (∀ c ∈ s.contexts, c.hasTag tag = false) ∧ ∃ c ∈ s.contexts, c.isFree = true

/-- Intake passes for a FORMAT in FAULTED, where there is no catalogue: the tag unused, a context FREE (R27, R28, R84). -/
abbrev AcceptsFaulted (s : State) (tag : Byte) : Prop :=
  s.resetLow = false ∧ s.dev = .faulted ∧ s.sleepPending = false ∧ s.csLow = false ∧ s.txn = .idle ∧
    s.committed.cat.active = none ∧ (∀ c ∈ s.contexts, c.hasTag tag = false) ∧ ∃ c ∈ s.contexts, c.isFree = true

/-- Intake passes for the kinds that a device in FAULTED takes in as well: RUNNING with no sleep pending, or FAULTED; the tag
unused, a context FREE (R27, R28). -/
abbrev AcceptsAlsoFaulted (s : State) (tag : Byte) : Prop :=
  s.resetLow = false ∧ (s.dev = .running ∧ s.sleepPending = false ∨ s.dev = .faulted) ∧ s.csLow = false ∧ s.txn = .idle ∧
    (∀ c ∈ s.contexts, c.hasTag tag = false) ∧ ∃ c ∈ s.contexts, c.isFree = true

/-- Nothing runs and nothing waits, and the array is ready (R37, R162). -/
abbrev EngineIdle (s : State) : Prop :=
  s.job = none ∧ s.ready = true ∧ ∀ c ∈ s.contexts, c.isQueued = false ∧ c.isExecuting = false

/-- Steps 5 and 6 of R39 pass without a refresh: no read-only condition, a sample that is not due, a profile
that permits writes. -/
abbrev Writable (c : Committed) : Prop := c.cat.readOnly = false ∧ c.due = false ∧ c.permits = true

/-- Catalogue segment `k` is active and an entry needs no compaction first (R60). -/
abbrev EntryRoom (c : Committed) (k : Nat) : Prop := c.cat.active = some k ∧ c.cat.fill + 8 ≤ cataloguePositions

/-! ### What stays as it was -/

/-- The state is `u`, and every byte of the data segments reads as it did. -/
def Becomes (s t u : State) : Prop := t = u ∧ ∀ a, readByte t.flash a = readByte s.flash a

/-- `s` with the link and the Request Manager as `t` has them: all that an accepted request may touch before its
own effects (the GUARD# pin as the model last looked at it among them). -/
def State.requestOf (s t : State) : State :=
  { s with
    guardHigh := t.guardHigh
    csLow := t.csLow
    txn := t.txn
    leadSdo := t.leadSdo
    offered := t.offered
    sdo := t.sdo
    resetArm := t.resetArm
    contexts := t.contexts
    nextAcceptance := t.nextAcceptance
    nextCompletion := t.nextCompletion
    armLatch := t.armLatch
    alertLow := t.alertLow }

/-- `s` with the transaction decoder, what it has chosen, SDO and ALERT# as `t` has them. -/
def State.linkOf (s t : State) : State :=
  { s with
    csLow := t.csLow
    txn := t.txn
    leadSdo := t.leadSdo
    offered := t.offered
    sdo := t.sdo
    resetArm := t.resetArm
    alertLow := t.alertLow }

/-! ### What a request leaves behind it -/

/-- Position `i` is the lowest FREE context (R32). -/
abbrev LowestFree (s : State) (i : Nat) : Prop :=
  s.contexts[i]? = some .free ∧ ∀ c ∈ s.contexts.take i, c.isFree = false

/-- The link after an accepted SUBMIT: its bytes are driven, with one FREE context fewer, the transaction is
decoded to its end, and the reset-arm flag is clear (R11, R17, R32). -/
def AcceptedOnLink (s t : State) : Prop :=
  t.csLow = true ∧ t.txn = .ended ∧ t.resetArm = false ∧
    t.sdo = .drive [0xFF, 0x00, byteOf (freeCount s.contexts - 1)] 0xFF

/-- A request has been accepted and is DONE already: its context, the numbers, the link and the arm latch (R11,
R25, R32, R34, R41, R141). -/
def Answered (s t : State) (k : Kind) (tag : Byte) (params : List Byte) (armed : Bool) (status : Status)
    (payload : List Byte) : Prop :=
  AcceptedOnLink s t ∧ t.nextAcceptance = s.nextAcceptance + 1 ∧ t.nextCompletion = s.nextCompletion + 1 ∧
    t.armLatch = none ∧
    ∃ i, LowestFree s i ∧ t.contexts = s.contexts.set i
      (.held ⟨tag, k, params, armed, s.nextAcceptance⟩ (.done s.nextCompletion status payload))

/-- A media request has been accepted and is EXECUTING, this operation being in progress for it with this working copy
and these events waiting, and nothing of its work being committed (R32, R36, R37, R181). -/
def StartedWith (s t : State) (k : Kind) (tag : Byte) (params : List Byte) (armed : Bool) (w : Committed)
    (events : List Raised) (op : Operation) (stage : Stage) : Prop :=
  AcceptedOnLink s t ∧ t.nextAcceptance = s.nextAcceptance + 1 ∧ t.nextCompletion = s.nextCompletion ∧
    t.armLatch = none ∧
    (∃ i, LowestFree s i ∧
      t.contexts = s.contexts.set i (.held ⟨tag, k, params, armed, s.nextAcceptance⟩ .executing) ∧
      t.job = some ⟨⟨.request i ⟨tag, k, params, armed, s.nextAcceptance⟩, w, events, 0⟩, op, stage⟩) ∧
    Becomes s t ({ s with job := t.job }.requestOf t)

/-- The same with the committed state for a working copy, and no events. -/
def Started (s t : State) (k : Kind) (tag : Byte) (params : List Byte) (armed : Bool) (op : Operation)
    (stage : Stage) : Prop := StartedWith s t k tag params armed s.committed [] op stage

/-- A media request has been accepted and completes at once, leaving this committed state and these events (R41,
R66, R125, R181). -/
def CompletedAtOnce (s t : State) (k : Kind) (tag : Byte) (params : List Byte) (armed : Bool) (status : Status)
    (payload : List Byte) (c : Committed) (events : List Raised) : Prop :=
  Answered s t k tag params armed status payload ∧
    Becomes s t ({ (({ s with committed := c }).recordAll events).comparePool with
      reconsider := s.reconsider || (s.reclaimPaused &&
        (c.activeProfile != s.committed.activeProfile || (c.permits && !s.committed.permits))) }.requestOf t)

/-- A request has been refused, or has answered without an effect: everything but the link, the Request Manager
and the pool comparison is as it was (R40, R66). -/
def Refused (s t : State) (k : Kind) (tag : Byte) (params : List Byte) (armed : Bool) (status : Status) : Prop :=
  Answered s t k tag params armed status [] ∧ Becomes s t (s.comparePool.requestOf t)

/-! ### Requests of every kind -/

/-- The row that stands for a request of this kind (log 4). -/
def Kind.command (k : Kind) (tag : Byte) (params : List Byte) (env : Env) : Instr :=
  match k with
  | .getIdentity => .getIdentity tag params
  | .getSettings => .getSettings tag params
  | .streamInfo => .streamInfo tag params
  | .poolInfo => .poolInfo tag params
  | .readProfiles => .readProfiles tag params
  | .readEvents => .readEvents tag params
  | .releaseEvents => .releaseEvents tag params
  | .clearAlarms => .clearAlarms tag params
  | .linkStats => .linkStats tag params
  | .getTime => .getTime tag params
  | .setTime => .setTime tag params env
  | .arm => .arm tag params
  | .abort => .abort tag params
  | .read => .read tag params env
  | .readNext => .readNext tag params env
  | .seek => .seek tag params env
  | .sampleTemperature => .sampleTemperature tag params env
  | .setTemperature => .setTemperature tag params env
  | .writeProfile => .writeProfile tag params env
  | .append => .append tag params env
  | .trim => .trim tag params env
  | .createStream => .createStream tag params env
  | .deleteStream => .deleteStream tag params env
  | .sealStream => .sealStream tag params env
  | .setHold => .setHold tag params env
  | .clearHold => .clearHold tag params env
  | .format => .format tag params env
  | .setOption => .setOption tag params env
  | .commitProfiles => .commitProfiles tag params env
  | .setOwnerLabel => .setOwnerLabel tag params env
  | .fixGuard => .fixGuard tag params env

/-- A value that a settings item may take (R154). -/
abbrev SettingAllowed (code v : Nat) : Prop :=
  code = 1 ∧ v ≤ 1 ∨ code = 2 ∧ v ≤ 2 ∨ code = 3 ∧ 0x08 ≤ v ∧ v ≤ 0x77 ∨ code = 4 ∧ v ≤ 0xFF ∨ code = 5 ∧ v ≤ 1 ∨
    code = 6 ∧ 250 ≤ v ∧ v ≤ 8000 ∧ v % 250 = 0 ∨ code = 7 ∧ v ∈ [1, 10, 100, 1000] ∨ code = 8 ∧ v < 2048 ∨
    code = 9 ∧ 4 ≤ v ∧ v ≤ 128

/-- A parameter field that is BAD_PARAM for its kind: a length that is none of its forms, or a field out of its range
(R20, R35, R39, R43, R67, R77, R79, R81, R83, R86, R92, R103, R108 to R110, R126 to R129, R137, R138, R140, R144, R149,
R152, R153, R155, R157, R165, R166, R179, R182, R183). An APPEND and a TRIM look at the stream too. -/
def Malformed (tb : Tables) (k : Kind) (params : List Byte) : Prop :=
  let byte := fun i => params.getD i 0x00
  let at' := fun i => (byte i).toNat
  let half : Nat → Half := fun i => byte i ++ byte (i + 1)
  let word : Nat → Word := fun i => byte i ++ byte (i + 1) ++ byte (i + 2) ++ byte (i + 3)
  let st := tb.stream (at' 0)
  match k with
  | .getIdentity | .getSettings | .poolInfo | .readProfiles | .linkStats | .getTime | .sampleTemperature | .format
  | .commitProfiles | .fixGuard => params ≠ []
  | .streamInfo => params.length ≠ 1 ∨ 0x10 ≤ at' 0 ∧ at' 0 ≤ 0xFE
  | .readEvents => params.length ≠ 1 ∨ at' 0 = 0 ∨ 8 < at' 0
  | .releaseEvents => params.length ≠ 2 ∨ 1 < at' 1
  | .clearAlarms => params.length ≠ 1 ∨ 64 ≤ at' 0
  | .setTime => params.length ≠ 4
  | .arm => params.length ≠ 2 ∨ ¬ (byte 0 = 0x33 ∧ at' 1 < 16 ∨ byte 0 ∈ [0x37, 0x3A, 0x3B, 0x3C])
  | .abort => params.length ≠ 2 ∨ 1 < at' 0
  | .read | .seek => params.length ≠ 5 ∨ 16 ≤ at' 0
  | .readNext | .deleteStream | .sealStream | .setHold | .clearHold => params.length ≠ 1 ∨ 16 ≤ at' 0
  | .setTemperature => params.length ≠ 2 ∨ (half 0).toInt < -220 ∨ 600 < (half 0).toInt
  | .writeProfile => params.length ≠ 9 ∨ 7 < at' 0 ∨ 1 < at' 1 ∨ 1 < at' 6 ∨ 3 < at' 7 ∨ 3 < at' 8 ∨
      at' 0 ≠ 0 ∧ at' 1 = 1 ∧ (half 4).toInt ≤ (half 2).toInt
  | .append => params.length < 2 ∨ 16 ≤ at' 0 ∨ 1 < at' 1 ∨ 504 < params.length ∨
      st.state ≠ .absent ∧
        st.slotSize - 10 - (if st.timeOption then 4 else 0) - (if st.tempOption then 2 else 0) + 2 < params.length
  | .trim => params.length ≠ 5 ∨ 16 ≤ at' 0 ∨ st.state ≠ .absent ∧ st.next < (word 1).toNat
  | .createStream => params.length ≠ 10 ∧ params.length ≠ 18 ∨ 16 ≤ at' 0 ∨ 3 < at' 1 ∨ 1 < at' 2 ∨
      1020 < (half 3).toNat ∨ at' 2 = 0 ∧ (half 3).toNat < 2 ∨ 3 < at' 5 ∨ (word 6).toNat = 0 ∨
      0xFFFF0000 < (word 6).toNat
  | .setOption => params.length ≠ 3 ∨ ¬ SettingAllowed (at' 0) (half 1).toNat
  | .setOwnerLabel => params.length ≠ 16

/-- The armed mark that intake gives a request: its kind is one of the five armed kinds, and the latch holds its pair (R141). -/
def MarkedArmed (s : State) (k : Kind) (params : List Byte) (armed : Bool) : Prop :=
  armed = true ↔ k ∈ [.deleteStream, .format, .commitProfiles, .setOwnerLabel, .fixGuard] ∧
    ∃ p, s.armLatch = some p ∧ p.kind = k ∧ (k = .deleteStream → params.head? = some p.id)

/-! ### Work in progress -/

/-- In RUNNING this operation is in progress for this task (R37, R47). -/
abbrev Working (s : State) (t : Task) (op : Operation) (stage : Stage) : Prop :=
  s.dev = .running ∧ s.job = some ⟨t, op, stage⟩

/-- Of the array and the fuse store nothing changes but bytes of the data segments for which `p` holds. -/
def OnlyBytes (s t : State) (p : Nat → Prop) : Prop :=
  t.catSegs = s.catSegs ∧ t.fuses = s.fuses ∧ ∀ a, ¬ p a → readByte t.flash a = readByte s.flash a

/-- Of the array and the fuse store nothing changes but catalogue segment `k`. -/
def OnlyCatalogue (s t : State) (k : Nat) : Prop :=
  t.fuses = s.fuses ∧ (∀ j, j ≠ k → t.catSegs[j]? = s.catSegs[j]?) ∧ ∀ a, readByte t.flash a = readByte s.flash a

/-- Of the array and the fuse store nothing changes but the fuse store. -/
def OnlyFuses (s t : State) : Prop := t.catSegs = s.catSegs ∧ ∀ a, readByte t.flash a = readByte s.flash a

/-- Of the array and the fuse store nothing changes but the target of this operation (R47, R145, R168, R170). -/
def OnlyTarget (s t : State) : Operation → Prop
  | .sensor => OnlyBytes s t (fun _ => False)
  | .program cells _ => OnlyBytes s t (fun x => x ∈ cells.map Prod.fst)
  | .erase d _ => OnlyBytes s t (fun x => d * 32768 ≤ x ∧ x < (d + 1) * 32768)
  | .catErase k _ | .catPage k _ _ _ _ | .catMark k _ | .catEntry k _ _ _ => OnlyCatalogue s t k
  | .fuseCell c => OnlyFuses s t ∧ (∀ x, x ≠ c → t.fuses.cell x = s.fuses.cell x) ∧
      ∀ ar, t.fuses.area ar = s.fuses.area ar
  | .fuseBytes ar _ => OnlyFuses s t ∧ (∀ x, t.fuses.cell x = s.fuses.cell x) ∧
      ∀ x, x ≠ ar → t.fuses.area x = s.fuses.area x

/-- Entry position `pos` of catalogue segment `k` holds this now, and nothing else of the segment has changed (R60). -/
def PositionHolds (s t : State) (k pos : Nat) (p : Position) : Prop :=
  let old := catSegAt s.catSegs k
  k < s.catSegs.length → t.catSegs[k]? = some { old with positions := old.positions.take pos ++ [p] }

/-- What a reset that stops everything leaves of the array and the fuse store: with no operation in progress all as it
was; with one, all but its target, and an entry whose program had not finished records nothing (R60, R170). -/
def OnlyStopped (s t : State) : Prop :=
  (s.job = none → t.catSegs = s.catSegs ∧ t.fuses = s.fuses ∧ ∀ a, readByte t.flash a = readByte s.flash a) ∧
  ∀ j, s.job = some j → OnlyTarget s t j.op ∧
    ∀ k pos e timing, j.op = .catEntry k pos e timing → ∃ erased, PositionHolds s t k pos (.spent erased)

/-- An operation has ended and the task goes on with this one, nothing being committed: all but what the operation
left in the array or the fuse store is as it was (R36, R49). -/
def GoesOn (s t : State) (task : Task) (op : Operation) (stage : Stage) : Prop :=
  t = { s with
    job := some ⟨task, op, stage⟩
    flash := t.flash
    catSegs := t.catSegs
    fuses := t.fuses
    alertLow := t.alertLow }

/-- Work ends in one step with everything it did: this committed state, these alarms latched and events recorded, the
pool level compared, the tick period taking effect (R36, R41, R49, R66, R156, R178, R181). -/
def Commits (s t : State) (c : Committed) (events : List Raised) (alarms : BitVec 6) : Prop :=
  let u := ({ s with committed := c }.recordAll events).comparePool
  t = { s with
    guardHigh := t.guardHigh
    committed := c
    job := none
    alarms := s.alarms ||| alarms
    events := u.events
    nextEvent := u.nextEvent
    overflow := u.overflow
    poolLow := u.poolLow
    poolLowArmed := u.poolLowArmed
    tickPeriod :=
      if c.tables.settings.tickPeriod = s.committed.tables.settings.tickPeriod then s.tickPeriod
      else c.tables.settings.tickPeriod.toNat
    reclaimPaused := t.reclaimPaused
    reconsider := t.reconsider
    contexts := t.contexts
    nextCompletion := t.nextCompletion
    flash := t.flash
    catSegs := t.catSegs
    fuses := t.fuses
    sensorLog := t.sensorLog
    alertLow := t.alertLow }

/-- The EXECUTING request of context `i` completes (R25, R41, R58, R125). -/
def Completes (s t : State) (i : Nat) (r : Request) (status : Status) (payload : List Byte) (c : Committed)
    (events : List Raised) (alarms : BitVec 6) : Prop :=
  Commits s t c events alarms ∧
    t.contexts = s.contexts.set i (.held r (.done s.nextCompletion status payload)) ∧
    t.nextCompletion = s.nextCompletion + 1 ∧ t.reclaimPaused = s.reclaimPaused ∧
    t.reconsider = (s.reconsider || (s.reclaimPaused &&
      (c.activeProfile != s.committed.activeProfile || (c.permits && !s.committed.permits))))

/-- The EXECUTING FORMAT of context `i` completes and leaves FAULTED standing, where there is no pool level (R41, R85; log
30). -/
def CompletesFaulted (s t : State) (i : Nat) (r : Request) (status : Status) (payload : List Byte) (c : Committed)
    (events : List Raised) (alarms : BitVec 6) : Prop :=
  let u := { s with committed := c }.recordAll events
  t = { s with
    committed := c
    job := none
    alarms := s.alarms ||| alarms
    events := u.events
    nextEvent := u.nextEvent
    overflow := u.overflow
    tickPeriod :=
      if c.tables.settings.tickPeriod = s.committed.tables.settings.tickPeriod then s.tickPeriod
      else c.tables.settings.tickPeriod.toNat
    reconsider := s.reconsider || (s.reclaimPaused &&
      (c.activeProfile != s.committed.activeProfile || (c.permits && !s.committed.permits)))
    contexts := s.contexts.set i (.held r (.done s.nextCompletion status payload))
    nextCompletion := s.nextCompletion + 1
    flash := t.flash
    catSegs := t.catSegs
    alertLow := t.alertLow }

/-- A FORMAT has been refused in FAULTED, leaving this committed state and these events: those of the refresh, if there
was one (R40, R84; logs 30 and 49). -/
def RefusedFaulted (s t : State) (tag : Byte) (params : List Byte) (armed : Bool) (status : Status) (c : Committed)
    (events : List Raised) : Prop :=
  Answered s t .format tag params armed status [] ∧
    Becomes s t ({ ({ s with committed := c }.recordAll events) with
      reconsider := s.reconsider || (s.reclaimPaused &&
        (c.activeProfile != s.committed.activeProfile || (c.permits && !s.committed.permits))) }.requestOf t)

/-- A background operation ends, reclaim paused or not (R58). -/
def BackgroundEnds (s t : State) (paused : Bool) (c : Committed) (events : List Raised) (alarms : BitVec 6) : Prop :=
  Commits s t c events alarms ∧ t.contexts = s.contexts ∧ t.nextCompletion = s.nextCompletion ∧
    t.reclaimPaused = paused ∧ t.reconsider = false

/-- The task with this working copy, and these events and alarms behind its own (R41, R178, R181). -/
def Task.carrying (t : Task) (w : Committed) (events : List Raised) (alarms : BitVec 6) : Task :=
  { t with work := w, events := t.events ++ events, alarms := t.alarms ||| alarms }

/-! ### Catalogue entries -/

/-- A working copy once an entry stands: its change made, one more position used (R60). -/
def Committed.withEntry (w : Committed) (e : Entry) : Committed :=
  { w with tables := applyEntry w.tables e, cat := { w.cat with fill := w.cat.fill + 1 } }

/-- What an image records: the tables, with no cursor, no write position, no closure, and next as last recorded (R59,
R75). The segments that the mount made DIRTY stand in it as they are held (log 50). -/
def imageOf (t : Tables) : Tables :=
  { t with streams := t.streams.map (fun x =>
    { x with next := x.recordedNext, writePos := 0, closed := false, cursor := 0 }) }

/-- No active catalogue segment, or fewer than eight of its positions left: an entry needs a compaction first (R60, R64). -/
abbrev NeedsCompaction (w : Committed) : Prop := w.cat.active = none ∨ cataloguePositions < w.cat.fill + 8

/-- The targets a compaction tries, in their order: the usable ones but the active one, less those that an entry of this
queue has still to make unusable (R61, R62, R64; log 21). -/
def targetsOf (w : Committed) (queue : List CatAction) : List Nat :=
  (match w.cat.active with
    | none => [0, 1, 2, 3]
    | some k => [(k + 1) % 4, (k + 2) % 4, (k + 3) % 4]).filter
      (fun k => w.tables.usable.getD k false && decide (CatAction.write (.unusable k) ∉ queue))

/-- The first operation on target `k`: the erase, unless it reads fully erased, and then the program of its generation,
one greater (R61; log 11; past FFFFFFFFh log 40). -/
def TargetBegins (segs : List CatSegment) (w : Committed) (k : Nat) (begins : Operation → TargetStep → Prop) : Prop :=
  ((catSegAt segs k).readsErased = true →
    begins (.catPage k 0 (nextGeneration w.cat.generation) (imageOf w.tables) (w.profile w.activeProfile).programClass) (.page 0)) ∧
  ((catSegAt segs k).readsErased = false → begins (.catErase k (w.profile w.activeProfile).eraseClass) .erasing)

/-- The entry at the head of the writer's queue begins: with room in the active catalogue segment its program, at the
lowest unused position; without, and outside the read-only condition, a compaction to the first target (R60, R61). -/
def QueueBegins (segs : List CatSegment) (w : Committed) (e : Entry) (rest : List CatAction) (after : After)
    (begins : Operation → Stage → Prop) : Prop :=
  (∀ k, EntryRoom w k → begins (.catEntry k w.cat.fill e (w.profile w.activeProfile).programClass)
    (.catalogue ⟨.write e :: rest, none, after⟩)) ∧
  (w.cat.readOnly = false → NeedsCompaction w → ∀ k ks, targetsOf w (.write e :: rest) = k :: ks →
    TargetBegins segs w k (fun op step =>
      begins op (.catalogue ⟨.write e :: rest, some ⟨k :: ks, [], step⟩, after⟩)))

/-- An entry with nothing behind it begins (R60, R61). -/
def EntryBegins (segs : List CatSegment) (w : Committed) (e : Entry) (after : After)
    (begins : Operation → Stage → Prop) : Prop := QueueBegins segs w e [] after begins

/-- SEGMENT_RETIRED with reason 04h for each suspect one of these segments (R57). -/
def retiredOf (t : Tables) (st : Stamp) (is : List Nat) : List Raised :=
  (is.filter (fun i => (t.seg i).suspect)).map (fun i => ⟨.segmentRetired, st, 0x04, BitVec.ofNat 32 i⟩)

/-- The events and alarms an entry brings (R57, R62, R95). The order of an eviction's two events is open (log 18). -/
def EntryRaises (t : Tables) (st : Stamp) (e : Entry) (events : List Raised) (alarms : BitVec 6) : Prop :=
  let released := fun is => events = retiredOf t st is ∧ alarms = if retiredOf t st is = [] then 0 else 0x02
  match e with
  | .trimmed _ _ is => released is
  | .deleted id => released ((t.stream id).segs.map SegLink.seg)
  | .formatted => released (t.streams.flatMap (fun x => x.segs.map SegLink.seg))
  | .evicted id oldest is =>
      (events = ⟨.wrapEvict, st, byteOf id, BitVec.ofNat 32 oldest⟩ :: retiredOf t st is ∨
        events = retiredOf t st is ++ [⟨.wrapEvict, st, byteOf id, BitVec.ofNat 32 oldest⟩]) ∧
      alarms = if retiredOf t st is = [] then 0 else 0x02
  | .retired seg reason =>
      events = [⟨.segmentRetired, st, match reason with
        | .eraseVerify => 0x01 | .eraseWatchdog => 0x02 | .descriptorFailed => 0x03 | .suspectUnlinked => 0x04,
        BitVec.ofNat 32 seg⟩] ∧ alarms = 0x02
  | .unusable k =>
      if (t.usable.set k false).countP (· == true) = 1 ∧ t.usable.countP (· == true) ≠ 1 then
        events = [⟨.catalogueDegraded, st, 0x01, BitVec.ofNat 32 k⟩] ∧ alarms = 0x10
      else events = [] ∧ alarms = 0
  | .created _ _ | .sealed _ _ | .holdSet _ | .holdCleared _ | .linked _ _ _ _ | .suspect _ | .erased _ _
  | .setting _ _ => events = [] ∧ alarms = 0

/-- An entry's program has verified: of the array only its catalogue segment changes, and the task goes on with the
entry's change, events and alarms (R36, R60). -/
def EntryEnds (s t : State) (task : Task) (k : Nat) (e : Entry) (next : Task → Prop) : Prop :=
  OnlyCatalogue s t k ∧ ∃ events alarms, EntryRaises task.work.tables ⟨s.tick, s.timeUnset⟩ e events alarms ∧
    next (task.carrying (task.work.withEntry e) events alarms)

/-- Only stream `id` changes of a table, to this. -/
def StreamBecomes (t t' : Tables) (id : Nat) (x : Stream) : Prop :=
  t' = { t with streams := t'.streams } ∧ t'.streams.length = t.streams.length ∧
    (id < t.streams.length → t'.stream id = x) ∧ ∀ j, j ≠ id → t'.stream j = t.stream j

/-- Only segment `i` changes of a table, to this, and the dirty list as given. -/
def SegmentBecomes (t t' : Tables) (i : Nat) (x : SegEntry) (dirty : List Nat) : Prop :=
  t' = { t with segs := t'.segs, dirty := dirty } ∧ t'.segs.length = t.segs.length ∧
    (i < t.segs.length → t'.seg i = x) ∧ ∀ j, j ≠ i → t'.seg j = t.seg j

/-- What each entry changes (R51, R54, R55, R57, R59, R62, R75, R154). -/
def EntryChanges (t t' : Tables) : Entry → Prop
  | .created id x => StreamBecomes t t' id x
  | .sealed id next => StreamBecomes t t' id { t.stream id with state := .sealed, recordedNext := next }
  | .trimmed id oldest is | .evicted id oldest is =>
      StreamBecomes (t.release is) t' id
        { t.stream id with oldest := oldest, segs := (t.stream id).segs.filter (fun l => decide (l.seg ∉ is)) }
  | .deleted id => StreamBecomes (t.release ((t.stream id).segs.map SegLink.seg)) t' id Stream.absent
  | .holdSet id => StreamBecomes t t' id { t.stream id with hold := true }
  | .holdCleared id => StreamBecomes t t' id { t.stream id with hold := false }
  | .formatted =>
      t' = { t.release (t.streams.flatMap (fun x => x.segs.map SegLink.seg)) with
        streams := List.replicate 16 Stream.absent }
  | .linked seg id link first =>
      ∃ u, SegmentBecomes t u seg { t.seg seg with state := .linked, suspect := false } t.dirty ∧
        StreamBecomes u t' id { t.stream id with
          segs := (t.stream id).segs ++ [⟨seg, link, first⟩], recordedNext := first, writePos := 0,
          closed := false }
  | .suspect seg => SegmentBecomes t t' seg { t.seg seg with suspect := true } t.dirty
  | .retired seg _ =>
      SegmentBecomes t t' seg { t.seg seg with state := .retired, suspect := false }
        (t.dirty.filter (fun i => decide (i ≠ seg)))
  | .erased seg count => SegmentBecomes t t' seg ⟨.free, count, false⟩ (t.dirty.filter (fun i => decide (i ≠ seg)))
  | .setting code v =>
      t' = { t with settings := t'.settings } ∧ ∀ c, 1 ≤ c → c ≤ 9 →
        t'.settings.get c = if c = code then v else t.settings.get c
  | .unusable k =>
      t' = { t with usable := t'.usable } ∧ t'.usable.length = t.usable.length ∧
        ∀ j < t.usable.length, t'.usable[j]? = if j = k then some false else t.usable[j]?

/-! ### An APPEND that needs a segment -/

/-- Data segment `i` is FREE with erase count `n`. -/
abbrev FreeAt (t : Tables) (i n : Nat) : Prop :=
  firstData ≤ i ∧ ∃ e, t.segs[i]? = some e ∧ e.state = .free ∧ e.eraseCount = n

/-- An eviction begins: the entry that unlinks the oldest segment of two or more, allocation being next (R95). -/
def Evicts (w : Committed) (a : AppendData) (entry : Entry → After → Prop) : Prop :=
  let st := w.tables.stream a.id
  ∀ (o p : SegLink) (rest : List SegLink), st.segs = o :: p :: rest →
    entry (.evicted a.id (max st.oldest p.firstSeq) [o.seg]) (.allocate a (max st.oldest p.firstSeq - st.oldest))

/-- What allocation does next: the descriptor of the FREE segment with the lowest erase count and then the lowest
index; with none, the erase of the head of the dirty list; with neither, self-eviction or POOL_EMPTY (R52, R53, R56,
R96). The offsets of the descriptor's fields (log 41) and the link number past FFFFFFFFh (log 52) are the model's. -/
def Allocates (w : Committed) (a : AppendData) (now : Stamp) (begins : Operation → Stage → Prop)
    (entry : Entry → After → Prop) (fails : Status → List Raised → Prop) : Prop :=
  let st := w.tables.stream a.id
  let link : Word := match st.segs.getLast? with | none => 1 | some l => nextLinkNumber l.linkNumber
  let fields := [byteOf a.id] ++ be32 link.toNat ++ be16 st.slotSize ++ be32 st.next
  (∀ i n, FreeAt w.tables i n → (∀ j m, FreeAt w.tables j m → n < m ∨ n = m ∧ i ≤ j) →
    begins (.program (cellsAt (i * 32768) (fields ++ checkBytes fields)) (w.profile w.activeProfile).programClass)
      (.descriptor a i)) ∧
  ((∀ i n, ¬ FreeAt w.tables i n) →
    (∀ d rest, w.tables.dirty = d :: rest →
      begins (.erase d (w.profile w.activeProfile).eraseClass) (.forcedErase a d)) ∧
    (w.tables.dirty = [] → st.retention = .wrap → st.hold = false → Evicts w a entry) ∧
    (w.tables.dirty = [] → ¬ (st.retention = .wrap ∧ st.hold = false ∧ 2 ≤ st.segs.length) →
      fails .poolEmpty [⟨.poolEmpty, now, byteOf a.id, BitVec.ofNat 32 st.next⟩]))

/-- What a stream that needs a segment does: the quota test, then allocation, eviction or STREAM_FULL (R94). -/
def NeedsSegment (w : Committed) (a : AppendData) (now : Stamp) (begins : Operation → Stage → Prop)
    (entry : Entry → After → Prop) (fails : Status → List Raised → Prop) : Prop :=
  let st := w.tables.stream a.id
  ((st.quota = 0 ∨ st.segs.length < st.quota) → Allocates w a now begins entry fails) ∧
  (st.quota ≠ 0 → st.quota ≤ st.segs.length → st.retention = .wrap → st.hold = false → Evicts w a entry) ∧
  (st.quota ≠ 0 → st.quota ≤ st.segs.length → ¬ (st.retention = .wrap ∧ st.hold = false) → fails .streamFull [])

/-- The cells of a record's body program: everything of the slot but the commit mark and the padding (R88, R90). -/
def recordCells (st : Stream) (a : AppendData) (base : Nat) : List Host.Cell :=
  let head := be32 st.next ++ be16 a.payload.length ++ [a.flags]
  let tail := (if st.timeOption then be32 a.stamp.tick.toNat else []) ++
    (if st.tempOption then be16 a.temperature.toNat else []) ++ a.payload
  cellsAt base head ++ cellsAt (base + 8) tail ++ cellsAt (base + st.slotSize - 2) (checkBytes (head ++ tail))

/-- The payload of an APPEND that has committed record `seq` (R100). -/
def recordReply (seq : Nat) (a : AppendData) (seg slot : Nat) : List Byte :=
  be32 seq ++ be32 a.stamp.tick.toNat ++ be16 a.temperature.toNat ++ [a.flags, byteOf a.profile] ++ be32 a.evicted ++
    be16 seg ++ be16 slot

/-- The payload of an APPEND that stores no record (R101). -/
def unrecorded (w : Committed) (a : AppendData) : List Byte :=
  be32 a.evicted ++ be32 (w.tables.stream a.id).oldest

/-! ### The catalogue writer -/

/-- The payload of a request that an entry not written ends: R101's for an APPEND, none for any other (R60, R101). -/
def After.unwritten (w : Committed) : After → List Byte
  | .allocate a _ | .record a | .recorded a _ _ | .retry a | .giveUp a => unrecorded w a
  | .reply _ | .formatReply _ | .option _ _ | .backgroundEnd => []

/-- An entry cannot be written: the request completes MEDIA_FAULT, an APPEND with the payload of R101, or the background
operation ends (R60, R63, R101; logs 20, 42, 51 and 53). -/
def EntryUnwritten (s t : State) (task : Task) (after : After) : Prop :=
  (∀ i r, task.owner = .request i r →
    Completes s t i r .mediaFault (after.unwritten task.work) task.work task.events task.alarms) ∧
  (task.owner = .background → BackgroundEnds s t false task.work task.events task.alarms)

/-- The working copy in the read-only condition (R63). -/
def Committed.enteringReadOnly (w : Committed) : Committed := { w with cat := { w.cat with readOnly := true } }

/-- The task in the read-only condition (R63). -/
def Task.readOnly (t : Task) : Task := { t with work := t.work.enteringReadOnly }

/-- What comes of the entry at the head of the queue when no compaction can be had: the read-only condition, and its
program in a remaining position, if there is one (R60, R63). -/
def ReadOnlyEntry (s t : State) (task : Task) (e : Entry) (rest : List CatAction) (after : After) : Prop :=
  let w := task.work
  (∀ k, w.cat.active = some k → w.cat.fill < cataloguePositions →
    GoesOn s t task.readOnly (.catEntry k w.cat.fill e (w.profile w.activeProfile).programClass)
      (.catalogue ⟨.write e :: rest, none, after⟩)) ∧
  (w.cat.active = none ∨ cataloguePositions ≤ w.cat.fill → EntryUnwritten s t task.readOnly after)

/-- What comes of the entry at the head of the writer's queue (R60, R61, R63). -/
def EntryNext (s t : State) (task : Task) (e : Entry) (rest : List CatAction) (after : After) : Prop :=
  QueueBegins t.catSegs task.work e rest after (GoesOn s t task) ∧
  ((task.work.cat.readOnly = true ∨ NeedsCompaction task.work ∧ targetsOf task.work (.write e :: rest) = []) →
    ReadOnlyEntry s t task e rest after)

/-- What comes of a new request's entry: its program, a compaction first, or, if none can be had, the read-only condition
with its program in a position that remains or MEDIA_FAULT (R60, R61, R63). -/
def EntryStarts (s t : State) (kind : Kind) (tag : Byte) (params : List Byte) (armed : Bool) (e : Entry) (after : After) :
    Prop :=
  let c := s.committed
  EntryBegins s.catSegs c e after (Started s t kind tag params armed) ∧
  (c.cat.readOnly = false → NeedsCompaction c → targetsOf c [.write e] = [] →
    (∀ k, c.cat.active = some k → c.cat.fill < cataloguePositions →
      StartedWith s t kind tag params armed c.enteringReadOnly []
        (.catEntry k c.cat.fill e (c.profile c.activeProfile).programClass) (.catalogue ⟨[.write e], none, after⟩)) ∧
    (c.cat.active = none ∨ cataloguePositions ≤ c.cat.fill →
      CompletedAtOnce s t kind tag params armed .mediaFault (after.unwritten c) c.enteringReadOnly []))

/-- What follows once the writer has nothing left to do: the request's reply, the next step of an APPEND, or the end of the
background operation (R58, R83, R98 to R101, R121, R156). -/
def WriterDone (s t : State) (u : Task) : After → Prop
  | .reply p => ∀ i r, u.owner = .request i r → Completes s t i r .ok p u.work u.events u.alarms
  | .formatReply p => ∀ i r, u.owner = .request i r →
      Completes s t i r .ok (p ++ [byteOf (u.work.tables.usable.countP (· == true))]) u.work u.events u.alarms
  | .option code p => ∀ i r, u.owner = .request i r → Completes s t i r .ok p
      (if code = 2 then { u.work with
        sample := { u.work.sample with fallback := false, failures := 0, dueMark := true } } else u.work)
      u.events u.alarms
  | .allocate a _ => ∀ i r, u.owner = .request i r →
      Allocates u.work a ⟨s.tick, s.timeUnset⟩ (GoesOn s t u) (fun e next => EntryNext s t u e [] next)
        (fun status more => Completes s t i r status (unrecorded u.work a) u.work (u.events ++ more) u.alarms)
  | .record a => ∀ l, (u.work.tables.stream a.id).segs.getLast? = some l →
      let st := u.work.tables.stream a.id
      GoesOn s t u (.program (recordCells st a (l.seg * 32768 + 512 + st.writePos * st.slotSize))
        (u.work.profile u.work.activeProfile).programClass) (.body a l.seg st.writePos)
  | .recorded a seg slot => ∀ i r, u.owner = .request i r →
      Completes s t i r .ok (recordReply ((u.work.tables.stream a.id).next - 1) a seg slot) u.work u.events u.alarms
  | .retry a => ∀ i r, u.owner = .request i r →
      NeedsSegment u.work { a with secondAttempt := true } ⟨s.tick, s.timeUnset⟩ (GoesOn s t u)
        (fun e next => EntryNext s t u e [] next)
        (fun status more => Completes s t i r status (unrecorded u.work a) u.work (u.events ++ more) u.alarms)
  | .giveUp a => ∀ i r, u.owner = .request i r →
      Completes s t i r .mediaFault (unrecorded u.work a) u.work u.events u.alarms
  | .backgroundEnd => u.owner = .background → BackgroundEnds s t false u.work u.events u.alarms

/-- The writer goes on with its queue: entries, and the erase of a former active segment unless that is active again or
reads fully erased (R61). -/
def QueueNext (s t : State) (task : Task) (after : After) : List CatAction → Prop
  | [] => WriterDone s t task after
  | .write e :: rest => EntryNext s t task e rest after
  | .eraseFormer j :: rest =>
    ((task.work.cat.active = some j ∨ (catSegAt t.catSegs j).readsErased = true) → QueueNext s t task after rest) ∧
    (task.work.cat.active ≠ some j → (catSegAt t.catSegs j).readsErased = false →
      GoesOn s t task (.catErase j (task.work.profile task.work.activeProfile).eraseClass)
        (.catalogue ⟨.eraseFormer j :: rest, none, after⟩))

/-- The operation that a step on target `k` has in progress (R61, R85). -/
def TargetStep.Operates (k : Nat) (op : Operation) : TargetStep → Prop
  | .erasing => ∃ timing, op = .catErase k timing
  | .page n => ∃ generation image timing, op = .catPage k n generation image timing
  | .marking => ∃ timing, op = .catMark k timing

/-- A step on target `k` has verified, `t` being what it left (R47, R61). -/
def TargetStep.Verified (t : State) (k : Nat) (rb : ReadBack) (trip : Bool) : TargetStep → Prop
  | .erasing => trip = false ∧ (catSegAt t.catSegs k).readsErased = true
  | .page _ | .marking => trip = false ∧ rb = .asIntended

/-- The entries that make these segments unusable (R62). -/
def unusables (ks : List Nat) : List CatAction := ks.map (fun k => .write (.unusable k))

/-- The tables a FORMAT builds in FAULTED from the array, with these catalogue segments unusable (R85). -/
structure RebuiltFrom (flash : List Host.Cell) (bad : List Nat) (tb : Tables) : Prop where
  /-- every stream ABSENT, every setting at its factory value -/
  rest : tb.streams = List.replicate 16 Stream.absent ∧ tb.settings = Settings.factory
  /-- the targets that failed unusable -/
  usable : tb.usable = (List.range 4).map (fun k => !bad.contains k)
  /-- 1024 segments, of which 0 to 3 are the catalogue's -/
  system : tb.segs.length = 1024 ∧ ∀ i < 4, tb.seg i = ⟨.system, 0, false⟩
  /-- a data segment that reads fully erased is FREE -/
  free : ∀ i, 4 ≤ i → i < 1024 → (∀ a < 32768, readByte flash (i * 32768 + a) = 0xFF) → tb.seg i = ⟨.free, 0, false⟩
  /-- any other is DIRTY -/
  dirty : ∀ i, 4 ≤ i → i < 1024 → (∃ a < 32768, readByte flash (i * 32768 + a) ≠ 0xFF) → tb.seg i = ⟨.dirty, 0, false⟩
  /-- the dirty list, in increasing index -/
  list : tb.dirty.Pairwise (· < ·) ∧
    ∀ i, i ∈ tb.dirty ↔ 4 ≤ i ∧ i < 1024 ∧ ∃ a < 32768, readByte flash (i * 32768 + a) ≠ 0xFF

/-! ### The refresh of step 6 -/

/-- PROFILE_CHANGED for a selection of this index for this value, if it is a change (R124). -/
def changeOf (c : Committed) (now : Stamp) (index : Nat) (v : Half) : List Raised :=
  if index = c.activeProfile then []
  else [⟨.profileChanged, now, byteOf (c.activeProfile * 16 + index), BitVec.ofNat 32 v.toNat⟩]

/-- The index selected for a value: again only if the value has changed (R119, R124). -/
def indexFor (c : Committed) (v : Half) : Nat :=
  if c.sample.value = some v then c.activeProfile else selectIndex c.profiles (some v)

/-- The working copy after an attempt that succeeded with this value (R119, R124). -/
def Committed.sampled (c : Committed) (v : Half) (source : Source) : Committed :=
  { c with
    sample := ⟨some v, some source, 0, false, false, 0, c.sample.fallback⟩
    activeProfile := indexFor c v }

/-- The twelve modifying requests with steps 1 to 4 of R39 passed: each with its kind, its parameters and its armed mark
(R77, R79, R81, R83, R92, R110, R137, R138, R144, R149, R152, R155). -/
inductive ReachesStepSix (s : State) (tag : Byte) (env : Env) : Instr → Kind → List Byte → Bool → Prop
  | append (id marker : Byte) (payload : List Byte) (hid : id.toNat < 16) (hm : marker.toNat ≤ 1)
      (ho : (s.committed.tables.stream id.toNat).state = .opened) (hl : payload.length ≤ 502)
      (hf : payload.length ≤ (s.committed.tables.stream id.toNat).slotSize - 10 -
        (s.committed.tables.stream id.toNat).optionBytes) :
      ReachesStepSix s tag env (.append tag (id :: marker :: payload) env) .append (id :: marker :: payload) false
  | trim (id : Byte) (n : Word) (hid : id.toNat < 16) (hs : (s.committed.tables.stream id.toNat).state ≠ .absent)
      (hn : n.toNat ≤ (s.committed.tables.stream id.toNat).next)
      (hg : s.committed.guardEngaged env.guardHigh = false) (hh : (s.committed.tables.stream id.toNat).hold = false) :
      ReachesStepSix s tag env (.trim tag (id :: be32 n.toNat) env) .trim (id :: be32 n.toNat) false
  | create (id sc ret qh ql opt : Byte) (start : Word) (label : List Byte) (hid : id.toNat < 16)
      (hl : label.length = 0 ∨ label.length = 8) (hs : (s.committed.tables.stream id.toNat).state = .absent)
      (h1 : sc.toNat ≤ 3) (h2 : ret.toNat ≤ 1) (h3 : opt.toNat ≤ 3) (h4 : (qh ++ ql).toNat ≤ 1020)
      (h5 : ret = 0x00 → 2 ≤ (qh ++ ql).toNat) (h6 : 1 ≤ start.toNat) (h7 : start.toNat ≤ 0xFFFF0000) :
      ReachesStepSix s tag env (.createStream tag ([id, sc, ret, qh, ql, opt] ++ be32 start.toNat ++ label) env)
        .createStream ([id, sc, ret, qh, ql, opt] ++ be32 start.toNat ++ label) false
  | delete (id : Byte) (hid : id.toNat < 16) (ha : s.armLatch = some ⟨.deleteStream, id⟩)
      (hg : s.committed.guardEngaged env.guardHigh = false)
      (hs : (s.committed.tables.stream id.toNat).state ≠ .absent)
      (hh : (s.committed.tables.stream id.toNat).hold = false) :
      ReachesStepSix s tag env (.deleteStream tag [id] env) .deleteStream [id] true
  | sealStream (id : Byte) (hid : id.toNat < 16) (hs : (s.committed.tables.stream id.toNat).state = .opened) :
      ReachesStepSix s tag env (.sealStream tag [id] env) .sealStream [id] false
  | setHold (id : Byte) (hid : id.toNat < 16) (hs : (s.committed.tables.stream id.toNat).state ≠ .absent)
      (hh : (s.committed.tables.stream id.toNat).hold = false) :
      ReachesStepSix s tag env (.setHold tag [id] env) .setHold [id] false
  | clearHold (id : Byte) (hid : id.toNat < 16) (hg : s.committed.guardEngaged env.guardHigh = false)
      (hs : (s.committed.tables.stream id.toNat).state ≠ .absent)
      (hh : (s.committed.tables.stream id.toNat).hold = true) :
      ReachesStepSix s tag env (.clearHold tag [id] env) .clearHold [id] false
  | format (ha : s.armLatch = some ⟨.format, 0x00⟩) (hg : s.committed.guardEngaged env.guardHigh = false)
      (hh : ∀ x ∈ s.committed.tables.streams, x.hold = false) :
      ReachesStepSix s tag env (.format tag [] env) .format [] true
  | option (code vh vl : Byte) (hc : SettingAllowed code.toNat (vh ++ vl).toNat)
      (hg : s.committed.guardEngaged env.guardHigh = true → code ≠ 0x07 ∧ (code = 0x01 → (vh ++ vl).toNat = 1 ∧
        s.committed.fuse.guardA ≠ .blown ∧ s.committed.fuse.guardB ≠ .blown)) :
      ReachesStepSix s tag env (.setOption tag [code, vh, vl] env) .setOption [code, vh, vl] false
  | commit (ha : s.armLatch = some ⟨.commitProfiles, 0x00⟩) (hg : s.committed.guardEngaged env.guardHigh = false)
      (hb : s.committed.fuse.bank ≠ .bUsed) :
      ReachesStepSix s tag env (.commitProfiles tag [] env) .commitProfiles [] true
  | label (bytes : List Byte) (hl : bytes.length = 16) (ha : s.armLatch = some ⟨.setOwnerLabel, 0x00⟩)
      (hs : s.committed.fuse.labelState = .absent) :
      ReachesStepSix s tag env (.setOwnerLabel tag bytes env) .setOwnerLabel bytes true
  | fixGuard (ha : s.armLatch = some ⟨.fixGuard, 0x00⟩) (hA : s.committed.fuse.guardA ≠ .blown)
      (hB : s.committed.fuse.guardB ≠ .blown) :
      ReachesStepSix s tag env (.fixGuard tag [] env) .fixGuard [] true

/-! ### What the mount finds (R64, R76, R145 to R148, R151, R171, R172) -/

/-- The table and origin a mount loads: bank B if used and good, else bank A if used and good, else factory (R147). -/
def mountedTable (f : FuseStore) : List Profile × Origin :=
  match (if f.markerB then goodBank f.bankB else none), (if f.markerA then goodBank f.bankA else none) with
  | some ps, _ => (ps, .bankB)
  | none, some ps => (ps, .bankA)
  | none, none => (factoryProfiles, .factory)

/-- The owner label's contents match their check (R151). -/
def labelGood (f : FuseStore) : Bool :=
  match f.label with
  | some bs => decide (bs.length = 18 ∧ checkBytes (bs.take 16) = bs.drop 16)
  | none => false

/-- The FUSE_FAULT events a mount raises: identity, a used bank B that is bad, a used bank A that is bad with no good
bank B before it, a damaged label (R148). -/
def fuseFaultsOf (f : FuseStore) (now : Stamp) : List Raised :=
  (if check f.identity = f.identityCheck then [] else [⟨.fuseFault, now, 0x01, 0⟩]) ++
  (if f.markerB = true ∧ goodBank f.bankB = none then [⟨.fuseFault, now, 0x02, 2⟩] else []) ++
  (if f.markerA = true ∧ goodBank f.bankA = none ∧ ¬ (f.markerB = true ∧ goodBank f.bankB ≠ none)
    then [⟨.fuseFault, now, 0x02, 1⟩] else []) ++
  (if f.labelMarker = true ∧ labelGood f = false then [⟨.fuseFault, now, 0x03, 0⟩] else [])

/-- The TORN_RECORD events of these streams: the last used slot of the newest segment is a void (R172). -/
def tornOf (flash : List Host.Cell) (now : Stamp) (streams : List Stream) : List Raised :=
  (List.range streams.length).filterMap (fun id =>
    let x := streams.getD id Stream.absent
    match x.segs.getLast? with
    | none => none
    | some l =>
      if x.state ≠ .absent ∧ 0 < x.writePos ∧
          readByte flash (l.seg * 32768 + 512 + (x.writePos - 1) * x.slotSize + 7) ≠ 0x5A then
        some ⟨.tornRecord, now, byteOf id, BitVec.ofNat 32 l.seg⟩
      else none)

/-- The state right after steps 1 to 5 of a mount (one step of the model, log 22): what step 1 takes from the fuse
store, and what all of them report. -/
structure MountBegun (t : State) : Prop where
  /-- MOUNTING with nothing in progress, no sample taken, the pool level armed (R173) -/
  fresh : t.dev = .mounting ∧ t.job = none ∧ t.mountSampled = false ∧ t.poolLow = false ∧ t.poolLowArmed = true ∧
    t.reclaimPaused = false ∧ t.reconsider = false ∧ t.sleepPending = false ∧ t.faultedProfile = none
  /-- the sample's state and the index before steps 6 and 7 (R112, R123) -/
  sample : t.committed.sample = Sample.initial ∧ t.committed.activeProfile = 0
  /-- the profile table and its origin (R147) -/
  table : (t.committed.profiles, t.committed.fuse.origin) = mountedTable t.fuses
  /-- the identity, with its check (R145) -/
  identity : t.committed.fuse.identity = t.fuses.identity ∧
    t.committed.fuse.identityOk = decide (check t.fuses.identity = t.fuses.identityCheck)
  /-- the guard-fix cells (R143) -/
  guard : t.committed.fuse.guardA = (if t.fuses.cellA then .blown else if t.fuses.attemptA then .failed else .untried) ∧
    t.committed.fuse.guardB = (if t.fuses.cellB then .blown else if t.fuses.attemptB then .failed else .untried)
  /-- the bank state (R146) -/
  bank : t.committed.fuse.bank = (if t.fuses.markerB then .bUsed else if t.fuses.markerA then .aUsed else .fresh)
  /-- the owner label (R151) -/
  label : t.committed.fuse.labelState =
      (if t.fuses.labelMarker = false then .absent else if labelGood t.fuses then .present else .damaged) ∧
    (t.fuses.labelMarker = false → t.committed.fuse.label = List.replicate 16 0x00) ∧
    ∀ bs, t.fuses.labelMarker = true → t.fuses.label = some bs → t.committed.fuse.label = bs.take 16
  /-- the event list: FUSE_FAULT and then TORN_RECORD, the first sixteen of them, and the overflow (R148, R172, R181) -/
  events :
    let found := fuseFaultsOf t.fuses ⟨t.tick, t.timeUnset⟩ ++
      tornOf t.flash ⟨t.tick, t.timeUnset⟩ t.committed.tables.streams
    t.events.map Event.what = found.take 16 ∧
      t.events.map Event.number = (List.range t.events.length).map (BitVec.ofNat 16) ∧
      t.nextEvent = BitVec.ofNat 16 t.events.length ∧ t.overflow.toNat = min 255 (found.length - 16)
  /-- the torn records counted, and the alarms (R148, R172, R178) -/
  alarms : t.tornFound = (tornOf t.flash ⟨t.tick, t.timeUnset⟩ t.committed.tables.streams).length ∧
    t.alarms = (if fuseFaultsOf t.fuses ⟨t.tick, t.timeUnset⟩ = [] then 0 else 0x04) |||
      (if tornOf t.flash ⟨t.tick, t.timeUnset⟩ t.committed.tables.streams = [] then 0 else 0x20)

/-- What steps 2 to 5 of a mount rebuild from the array (R64, R76, R163, R171, R173). -/
structure MountRead (t : State) : Prop where
  /-- the outcome and the catalogue position -/
  outcome : t.mountOutcome = (rebuild t.catSegs).2.2 ∧ t.committed.cat = (rebuild t.catSegs).2.1
  /-- with an image or on a fresh device: every stream completed, the usable segments and the settings in effect -/
  tables : (rebuild t.catSegs).2.2 ≠ .faulted →
    t.committed.tables.streams = (rebuild t.catSegs).1.streams.map (recoverStream t.flash) ∧
      t.committed.tables.usable = (rebuild t.catSegs).1.usable ∧
      t.committed.tables.settings = (rebuild t.catSegs).1.settings ∧
      t.tickPeriod = (rebuild t.catSegs).1.settings.tickPeriod.toNat
  /-- the FREE segments whose descriptor page is not erased become DIRTY, in rising index after all others -/
  segments : (rebuild t.catSegs).2.2 ≠ .faulted → Memory.wf t.flash = true →
    let b := (rebuild t.catSegs).1
    ∃ is : List Nat, is.Pairwise (· < ·) ∧
      (∀ i, i ∈ is ↔ 4 ≤ i ∧ i < 1024 ∧ (b.seg i).state = .free ∧ ∃ a < 512, readByte t.flash (i * 32768 + a) ≠ 0xFF) ∧
      t.committed.tables.dirty = b.dirty ++ is ∧
      ∀ i, t.committed.tables.seg i =
        if i ∈ is then { b.seg i with state := .dirty, suspect := false } else b.seg i
  /-- without a catalogue: the tables of a fresh device, until a FORMAT builds others (R85, R171) -/
  faulted : (rebuild t.catSegs).2.2 = .faulted → t.committed.tables = Tables.fresh ∧ t.tickPeriod = 10

/-! ### Sensor attempts -/

/-- The acts of a recovery that took this many looks at TSDA: pulses, nine at most, and a STOP (R116). -/
def busRecovery (n : Nat) : List BusAct := if n = 0 then [] else List.replicate (min n 9) .pulse ++ [.stop]

/-- The value of a word of the external sensor, in the configured format, Q12 or Q2 (R115). -/
def busValue (g : Settings) (w : Half) : Int := if g.sensorFormat = 0x0000 then (w.toInt / 16) / 4 else w.toInt

/-- The address byte of the sensor for a write (R115). -/
def busWriteByte (g : Settings) : Byte := byteOf (g.sensorAddress.toNat * 2)

/-- The address byte of the sensor for a read (R115). -/
def busReadByte (g : Settings) : Byte := byteOf (g.sensorAddress.toNat * 2 + 1)

/-- The pointer byte (R115). -/
def busPointerByte (g : Settings) : Byte := byteOf g.sensorPointer.toNat

/-- The acts of an attempt that reads a word (R115, figure 6-1). -/
def busRun (g : Settings) (w : Half) : List BusAct :=
  [.start, .sent (busWriteByte g) true, .sent (busPointerByte g) true, .repeatedStart, .sent (busReadByte g) true,
    .received (w.extractLsb' 8 8) true, .received (w.extractLsb' 0 8) false, .stop, .release]

/-- The payload of a SAMPLE_TEMPERATURE: the source of the attempt, the reason of its failure or 00h, and the sample as it
then stands (R128). -/
def samplePayload (c : Committed) (attempt reason : Byte) : List Byte :=
  [attempt, reason] ++ be16 (c.sample.value.getD 0x8000).toNat ++
    [(match c.sample.source with
      | none => 0xFF | some .external => 0x00 | some .internal => 0x01 | some .host => 0x02 : Byte)] ++
    be32 (if c.sample.value.isSome then c.sample.age else 0xFFFFFFFF) ++
    [if c.sample.stale then 0x01 else 0x00, byteOf c.sample.failures, if c.sample.fallback then 0x01 else 0x00,
      byteOf c.activeProfile, if c.permits then 0x01 else 0x00]

/-- What a failed external attempt leaves and raises: counted and reported, and at the third failure fallback with the
die's value and its profile (R119, R120). -/
def failureOf (w : Committed) (now : Stamp) (die : Int) (reason : Byte) (raw : Nat) : Committed × List Raised :=
  let n := w.sample.failures + 1
  let fault : Raised := ⟨.sensorFault, now, reason, BitVec.ofNat 32 (n * 65536 + raw)⟩
  let v := dieValue die
  let index := selectIndex w.profiles (some v)
  if n < 3 then
    ({ w with sample := { w.sample with stale := w.sample.value.isSome, dueMark := false, failures := n } }, [fault])
  else
    ({ w with sample := ⟨some v, some .internal, 0, false, false, 0, true⟩, activeProfile := index },
      [fault, ⟨.sensorFallback, now, reason, BitVec.ofNat 32 v.toNat⟩] ++ changeOf w now index v)

/-- A SAMPLE_TEMPERATURE whose external attempt failed (R119, R120, R128). -/
def AttemptFails (s t : State) (i : Nat) (r : Request) (task : Task) (die : Int) (reason : Byte) (raw : Nat) : Prop :=
  let o := failureOf task.work ⟨s.tick, s.timeUnset⟩ die reason raw
  Completes s t i r .sensorFailed (samplePayload o.1 0x00 reason) o.1 (task.events ++ o.2) task.alarms

/-! ### The work behind step 6 -/

/-- How many of these segments become DIRTY and how many RETIRED when they are released (R82, R111). -/
def releasedCounts (t : Tables) (is : List Nat) : List Byte :=
  be16 (is.countP (fun i => !(t.seg i).suspect)) ++ be16 (is.countP (fun i => (t.seg i).suspect))

/-- What a modifying request does once step 6 of R39 has passed, by its kind: an APPEND captures its values and takes a
slot, the structural requests write their one entry, the fuse requests program a marker or an attempt cell (R78, R79, R82,
R83, R89, R93, R111, R137, R138, R144, R150, R152, R156). -/
def WorkNext (s t : State) (task : Task) (i : Nat) (r : Request) : Prop :=
  let w := task.work
  let timing := (w.profile w.activeProfile).programClass
  let entry := fun e after => EntryNext s t task e [] after
  match r.kind with
  | .append => ∀ (id marker : Byte) (payload : List Byte), r.params = id :: marker :: payload → id.toNat < 16 →
      (w.tables.stream id.toNat).state = .opened → marker.toNat ≤ 1 → payload.length ≤ 502 → w.activeProfile ≤ 7 →
      let st := w.tables.stream id.toNat
      let now : Stamp := ⟨s.tick, s.timeUnset⟩
      let bit : Bool → Byte → Byte := fun b v => if b then v else 0x00
      let a : AppendData := ⟨id.toNat, payload, now, w.sample.value.getD 0x8000,
        bit st.timeOption 0x01 ||| bit st.tempOption 0x02 ||| bit s.timeUnset 0x04 |||
          bit (w.sample.value.isNone || w.sample.stale) 0x08 ||| (byteOf (w.activeProfile % 8) <<< 4) |||
          bit (decide (marker = 0x01)) 0x80, w.activeProfile, 0, false⟩
      let full := fun l : SegLink =>
        (w.tables.seg l.seg).suspect = true ∨ st.closed = true ∨ 63 * (512 / st.slotSize) ≤ st.writePos
      (st.next = 0xFFFFFFFF → Completes s t i r .seqExhausted [] w task.events task.alarms) ∧
      (st.next ≠ 0xFFFFFFFF →
        (∀ l, st.segs.getLast? = some l → ¬ full l → GoesOn s t task
          (.program (recordCells st a (l.seg * 32768 + 512 + st.writePos * st.slotSize)) timing) (.body a l.seg st.writePos)) ∧
        ((∀ l, st.segs.getLast? = some l → full l) → NeedsSegment w a now (GoesOn s t task) entry
          (fun status more => Completes s t i r status (unrecorded w a) w (task.events ++ more) task.alarms)))
  | .trim => ∀ (id : Byte) (n : Word), r.params = id :: be32 n.toNat → id.toNat < 16 →
      let st := w.tables.stream id.toNat
      let is := releasedBy n.toNat st.next (st.state == .sealed) st.segs
      (n.toNat ≤ st.oldest → Completes s t i r .ok (be32 st.oldest ++ [0x00, 0x00, 0x00, 0x00]) w task.events task.alarms) ∧
      (st.oldest < n.toNat →
        entry (.trimmed id.toNat n.toNat is) (.reply (be32 n.toNat ++ releasedCounts w.tables is)))
  | .createStream => ∀ id x, parseCreate r.params = some (id, x) →
      entry (.created id x) (.reply (byteOf id :: be32 x.next))
  | .deleteStream => ∀ id : Byte, r.params = [id] → id.toNat < 16 →
      entry (.deleted id.toNat)
        (.reply (releasedCounts w.tables ((w.tables.stream id.toNat).segs.map SegLink.seg)))
  | .sealStream => ∀ id : Byte, r.params = [id] → id.toNat < 16 →
      let next := (w.tables.stream id.toNat).next
      entry (.sealed id.toNat next) (.reply (be32 next))
  | .setHold => ∀ id : Byte, r.params = [id] → id.toNat < 16 → entry (.holdSet id.toNat) (.reply [id, 0x00])
  | .clearHold => ∀ id : Byte, r.params = [id] → id.toNat < 16 → entry (.holdCleared id.toNat) (.reply [id, 0x01])
  | .format => entry .formatted (.formatReply ([0x00, byteOf (w.tables.streams.countP (fun x => x.state != .absent))] ++
      releasedCounts w.tables (w.tables.streams.flatMap (fun x => x.segs.map SegLink.seg))))
  | .setOption => ∀ (code : Byte) (v : Half), r.params = code :: be16 v.toNat →
      settingPermitted code.toNat v.toNat = true →
      entry (.setting code.toNat v)
        (.option code.toNat ([code] ++ be16 (w.tables.settings.get code.toNat).toNat ++ be16 v.toNat))
  | .commitProfiles => GoesOn s t task (.fuseCell (if w.fuse.bank = .aUsed then .markerB else .markerA))
      (.bankMarker (w.fuse.bank == .aUsed))
  | .setOwnerLabel => r.params.length = 16 → GoesOn s t task (.fuseCell .labelMarker) (.labelMarker r.params)
  | .fixGuard =>
      (¬ (w.fuse.guardA = .failed ∧ w.fuse.guardB = .failed) →
        GoesOn s t task (.fuseCell (if w.fuse.guardA = .failed then .attemptB else .attemptA))
          (.guardAttempt (w.fuse.guardA == .failed))) ∧
      (w.fuse.guardA = .failed → w.fuse.guardB = .failed →
        Completes s t i r .fuseFault [] w task.events (task.alarms ||| 0x04))
  | .getIdentity | .getSettings | .streamInfo | .poolInfo | .readProfiles | .readEvents | .releaseEvents
  | .clearAlarms | .linkStats | .getTime | .setTime | .arm | .abort | .read | .readNext | .seek
  | .sampleTemperature | .setTemperature | .writeProfile => True

/-- A refresh at step 6 has ended with this working copy and these events: TEMP_INHIBIT by the profile it leaves, the
refresh standing, or the request's work (R39, R40, R125). -/
def StepSix (s t : State) (task : Task) (i : Nat) (r : Request) (c : Committed) (events : List Raised) : Prop :=
  (c.permits = false → Completes s t i r .tempInhibit [] c (task.events ++ events) task.alarms) ∧
  (c.permits = true → WorkNext s t (task.carrying c events 0) i r)

/-- A background operation's refresh has ended: the erase of the head of the dirty list, or a pause (R58). -/
def BackgroundRefreshed (s t : State) (task : Task) (c : Committed) (events : List Raised) : Prop :=
  (c.permits = true → ∀ d rest, c.tables.dirty = d :: rest →
    GoesOn s t (task.carrying c events 0) (.erase d (c.profile c.activeProfile).eraseClass) (.backgroundErase d)) ∧
  (c.permits = true → c.tables.dirty = [] → BackgroundEnds s t false c (task.events ++ events) task.alarms) ∧
  (c.permits = false → BackgroundEnds s t true c (task.events ++ events) task.alarms)

/-- An attempt on the sensor bus, begun by the refresh of a request's step 6 or of a background operation, has ended (R39,
R58). -/
def RefreshEnds (s t : State) (task : Task) (stage : Stage) (c : Committed) (events : List Raised) : Prop :=
  let u := { s with sensorLog := t.sensorLog, guardHigh := t.guardHigh }
  (∀ i r, stage = .refresh → task.owner = .request i r → StepSix u t task i r c events) ∧
  (stage = .backgroundRefresh → BackgroundRefreshed u t task c events)

/-! ### Invariants -/

/-- The array's memory has its canonical form. -/
def ArrayForm (s : State) : Prop := Memory.wf s.flash = true

/-- The limits of R24: eight contexts, at most one EXECUTING, at most six media contexts. -/
def ContextLimits (s : State) : Prop :=
  s.contexts.length = contextCount ∧ s.contexts.countP Context.isExecuting ≤ 1 ∧ mediaCount s.contexts ≤ maxMedia

/-- The event list holds at most 16 events (R181). -/
def EventLimit (s : State) : Prop := s.events.length ≤ maxEvents

/-- ALERT# stands at the level of R184. -/
def AlertFollows (s : State) : Prop := s.alertLow = s.alertLevel

end Sys2Proof.Machine
end

