-- ==== Sys2Proof/Certificates/Slice0/Obligations.lean ====
section
/-! DEFINITION. The statements for the provers. Each docstring names the rules a statement rests on; the terms are
those of Sys2Proof/Safety.lean. -/

open Sys2Proof Sys2Proof.Machine

/-! ### The step -/

/-- The step carries out the command at the front of the queue, and idles on an empty queue (log 1). -/
def Obligations.StepRunsFrontCommand : Prop :=
  (∀ (c : Instr) (s : State), step { s with pending := c :: s.pending } = exec c s) ∧
    ∀ s : State, s.pending = [] → step s = .next s

/-- Every command answers a next state that keeps the queue, whatever the state and the operands: the queue, and that
no command faults or is refused, are the model's own (log 1, log 2). After each command ALERT# is low exactly in
RUNNING or FAULTED with RESET# high while a context is DONE or an event is listed whose bit of ALERT_MASK is set
(R184). -/
def Obligations.CommandsKeepQueueAndDriveAlert : Prop :=
  (∀ (c : Instr) (s : State), ∃ t, exec c s = .next t ∧ t.pending = s.pending) ∧
  (∀ (c : Instr) (s : State), ∃ t, exec c s = .next t ∧
     (t.alertLow = true ↔
       t.resetLow = false ∧ (t.dev = .running ∨ t.dev = .faulted) ∧
         ((∃ x ∈ t.contexts, x.isDone = true) ∨
           ∃ e ∈ t.events, t.committed.tables.settings.alertMask.getLsbD (e.what.kind.code - 1) = true)))

/-! ### Invariants and rules of the whole machine -/

/-- Every step keeps the canonical form of the array's memory: addresses rising, and no cell listed that reads FFh. The
form is the model's own representation (log 9) of an array whose erased bytes read FFh (section 3.2, R65). -/
def Obligations.ArrayFormKept : Prop :=
  ∀ s t : State, ArrayForm s → step s = .next t → ArrayForm t

/-- Every step keeps the limits of R24: eight contexts, at most one EXECUTING, at most six media contexts; and the limit
of R181: at most sixteen events in the list. -/
def Obligations.ContextLimitsKept : Prop :=
  (∀ s t : State, ContextLimits s → step s = .next t → ContextLimits t) ∧
    ∀ s t : State, EventLimit s → step s = .next t → EventLimit t

/-- The state after reset meets the invariants. -/
def Obligations.ResetMeetsInvariants : Prop :=
  ArrayForm State.reset ∧ ContextLimits State.reset ∧ AlertFollows State.reset ∧ EventLimit State.reset

/-- TIME_UNSET is cleared only by a SET_TIME, sent as its own row or inside a SUBMIT (R164). -/
def Obligations.TimeUnsetClearedOnlyBySetTime : Prop :=
  ∀ (c : Instr) (s t : State), exec c s = .next t → s.timeUnset = true → t.timeUnset = false →
    (∃ tag params env, c = .setTime tag params env) ∨
      ∃ tag params chk env, c = .submit 0x0B tag params chk env

/-- A latched alarm is cleared only by CLEAR_ALARMS, a hardware reset, or the end of a software reset's drain
(R178). -/
def Obligations.AlarmsClearedOnlyAsListed : Prop :=
  ∀ (c : Instr) (s t : State), exec c s = .next t → s.alarms &&& t.alarms ≠ s.alarms →
    (∃ tag params, c = .clearAlarms tag params) ∨ (∃ tag params chk env, c = .submit 0x08 tag params chk env) ∨
      (∃ long rb, c = .hardwareReset long rb) ∨ (∃ supply rb, c = .resetRelease supply rb) ∨ c = .drainEnd

/-- No command unprograms a cell of the fuse store, and none changes the identity record (R143, R145). -/
def Obligations.FuseCellsOnlyBlow : Prop :=
  ∀ (c : Instr) (s t : State), exec c s = .next t →
    (∀ x : FuseCell, s.fuses.cell x = true → t.fuses.cell x = true) ∧
      t.fuses.identity = s.fuses.identity ∧ t.fuses.identityCheck = s.fuses.identityCheck

/-- In DEEP_SLEEP with nothing in progress, every command but a WAKE, RESET# and the supply changes nothing but the
transaction decoder, and SDO stays high-impedance, in the lead byte position too (R21, R161). While RESET# is low the
same holds of every command but RESET# itself and the supply (R22, R170). -/
def Obligations.AsleepOrResetHearsNothingElse : Prop :=
  (∀ (c : Instr) (s : State), s.dev = .deepSleep → s.job = none → s.sdo = .highZ → s.alertLow = false →
     (∀ x, c ≠ .wake x) → (∀ l rb, c ≠ .hardwareReset l rb) → (∀ p rb, c ≠ .resetRelease p rb) →
     ∃ t, exec c s = .next t ∧ t.sdo = .highZ ∧ (t.leadSdo = s.leadSdo ∨ t.leadSdo = none) ∧
       Becomes s t { s with csLow := t.csLow, txn := t.txn, leadSdo := t.leadSdo }) ∧
  (∀ (c : Instr) (s : State), s.resetLow = true → s.job = none → s.sdo = .highZ → s.alertLow = false →
     (∀ l rb, c ≠ .hardwareReset l rb) → (∀ p rb, c ≠ .resetRelease p rb) →
     ∃ t, exec c s = .next t ∧ t.sdo = .highZ ∧ (t.leadSdo = s.leadSdo ∨ t.leadSdo = none) ∧
       Becomes s t { s with csLow := t.csLow, txn := t.txn, leadSdo := t.leadSdo })

/-- An accepted immediate request does no array or fuse work, starts no operation and leaves committed state
alone (R34): of any parameters, for every immediate kind. -/
def Obligations.ImmediateRequestsLeaveMediaAlone : Prop :=
  ∀ (k : Kind) (tag : Byte) (params : List Byte) (chk : Half) (env : Env) (s t : State), k.isMedia = false →
    LinkIdle s → exec (.submit k.code tag params chk env) s = .next t →
    t.committed = s.committed ∧ t.job = s.job ∧ t.flash = s.flash ∧ t.catSegs = s.catSegs ∧ t.fuses = s.fuses ∧
      t.dev = s.dev ∧ ∀ a, readByte t.flash a = readByte s.flash a

/-! ### Bytes, the array's memory, the record and the fuse banks -/

/-- The check of R3: its preset, one byte's eight steps most significant bit first with the polynomial 8005h, the
bytes it is sent as; and run over a sequence and then over the sequence's own two check bytes it ends at 0000h. -/
def Obligations.CheckIsTheOneOfTheManual : Prop :=
  (check [] = 0xFFFF ∧ check [0x00, 0x00] = 0x800D ∧
     (∀ (bs : List Byte) (b : Byte), check (bs ++ [b]) =
       (fun r => if r.getLsbD 15 then (r <<< 1) ^^^ 0x8005 else r <<< 1)^[8] (check bs ^^^ (b.zeroExtend 16 <<< 8))) ∧
     ∀ bs : List Byte, checkBytes bs = [(check bs).extractLsb' 8 8, (check bs).extractLsb' 0 8]) ∧
  (∀ bs : List Byte, check (bs ++ checkBytes bs) = 0x0000)

/-- A record written by its body and mark programs into an erased slot reads back intact, with its options and
payload as they were given (R88, R90, R106). -/
def Obligations.RecordWrittenReadsBack : Prop :=
  ∀ (m : List Host.Cell) (st : Stream) (a : AppendData) (base : Nat),
    Memory.wf m = true → st.slotSize ∈ [64, 128, 256, 512] → st.next < 2 ^ 32 →
    a.payload.length ≤ st.maxPayload → a.flags.getLsbD 0 = st.timeOption → a.flags.getLsbD 1 = st.tempOption →
    (∀ i < st.slotSize, readByte m (base + i) = 0xFF) →
    let slot := readRange (writeCells (writeCells m (bodyCells st a base)) (markCell base)) base st.slotSize
    recordIntact st slot st.next = true ∧ slot.getD 7 0 = 0x5A ∧ slot.take 4 = be32 st.next ∧
      slot.getD 6 0 = a.flags ∧ (slot.drop 4).take 2 = be16 a.payload.length ∧
      (slot.drop 8).take (st.optionBytes + a.payload.length) =
        (if st.timeOption then be32 a.stamp.tick.toNat else []) ++
          (if st.tempOption then be16 a.temperature.toNat else []) ++ a.payload

/-- The mount counts a record committed at the write position: next and the write position each come back one
greater than the mount would have found them before (R76, R90, R91). -/
def Obligations.CommittedRecordSurvivesMount : Prop :=
  ∀ (m : List Host.Cell) (st : Stream) (l : SegLink) (a : AppendData),
    Memory.wf m = true → st.state ≠ .absent → st.newest = some l → st.slotSize ∈ [64, 128, 256, 512] →
    a.payload.length ≤ st.maxPayload → recoverStream m st = { st with cursor := st.oldest } →
    st.writePos < slotsPerSegment st.slotSize →
    let base := slotBase l.seg st.slotSize st.writePos
    recoverStream (writeCells (writeCells m (bodyCells st a base)) (markCell base)) st =
      { st with cursor := st.oldest, next := st.next + 1, writePos := st.writePos + 1 }

/-- A profile table programmed into a bank is read back from it entry by entry; a bank of another length, with a check that
does not match or without entry 0 used is bad (R127, R145, R146). That a bank of which nothing was programmed is bad is the
model's choice (log 19): R145 does not say how one reads, and R150 (section 8.2) only that a marker whose contents failed or
never followed makes a bank that every mount finds bad. -/
def Obligations.ProfileBankReadsBack : Prop :=
  (∀ ps : List Profile, ps.length = 8 → (∀ p ∈ ps, p.programClass ≤ 3 ∧ p.eraseClass ≤ 3) →
    (ps.head?.map Profile.used = some true) → goodBank (some (bankBytes ps)) = some ps) ∧
  goodBank none = none ∧
  (∀ bs : List Byte, bs.length ≠ 66 ∨ checkBytes (bs.take 64) ≠ bs.drop 64 → goodBank (some bs) = none) ∧
  ∀ ps : List Profile, ps.length = 8 → ps.head?.map Profile.used = some false → goodBank (some (bankBytes ps)) = none

/-- Segments that leave their lists become RETIRED if suspect and otherwise DIRTY at the end of the dirty list in
the order given; no other segment changes (R51, R54, R57). -/
def Obligations.ReleasedSegmentsBecomeDirtyOrRetired : Prop :=
  ∀ (t : Tables) (is : List Nat), is.Nodup → (∀ i ∈ is, i < t.segs.length) →
    (t.release is).dirty = t.dirty ++ is.filter (fun i => !(t.seg i).suspect) ∧
      (∀ i ∈ is, (t.release is).seg i =
        { t.seg i with state := if (t.seg i).suspect then .retired else .dirty, suspect := false }) ∧
      (∀ i, i ∉ is → (t.release is).seg i = t.seg i) ∧ (t.release is).streams = t.streams

/-- The comparison of the pool level: POOL_LOW, and its event once per descent (R66). -/
def Obligations.PoolLevelRaisesOncePerDescent : Prop :=
  ∀ s : State,
    let n := s.committed.tables.available
    let threshold := s.committed.tables.settings.poolLowThreshold.toNat
    s.comparePool.poolLow = decide (n < threshold) ∧ s.comparePool.poolLowArmed = decide (threshold ≤ n) ∧
      (n < threshold → s.poolLowArmed = true → s.events.length < 16 →
        s.comparePool.events = s.events ++
          [⟨s.nextEvent, ⟨.poolLow, ⟨s.tick, s.timeUnset⟩, byteOf threshold, BitVec.ofNat 32 n⟩⟩]) ∧
      (¬ (n < threshold ∧ s.poolLowArmed = true) → s.comparePool.events = s.events)

/-! ### The link -/

/-- At the lead point, FFh having been driven in the lead byte position, the reset-arm flag is sampled and cleared, the
transaction kind is chosen, and what SDO drives next is fixed: FFh, or for a FETCH the reply chosen or 00h, for a
REFETCH the echo buffer or 00h, for a PEEK the status word (R4, R5, R12, R14, R15, R17). A lead byte outside the lead table
is counted there, at its lead point, and FFh follows (R6). Whatever happens before the rest of the transaction arrives, a
FETCH, a REFETCH and a PEEK go on with what their lead point fixed (R12, R15). -/
def Obligations.LeadPointSamplesResetArm : Prop :=
  (∀ (s : State) (b : Byte) (pin : Bool), LinkIdle s → b ∈ [0xA1, 0xA2, 0xA3, 0xA4, 0xC1, 0xC2, 0xC3, 0xC4] →
    ∃ t, exec (.leadByte ⟨b, pin⟩) s = .next t ∧ t.csLow = true ∧ t.txn = .lead b s.resetArm ∧ t.resetArm = false ∧
      t.leadSdo = some 0xFF ∧ (b ∈ [0xA1, 0xC1, 0xC2, 0xC3, 0xC4] → t.sdo = .drive [] 0xFF) ∧
      (b = 0xA2 →
        (∀ (i n : Nat) (r : Request) (st : Status) (p : List Byte), s.contexts[i]? = some (.held r (.done n st p)) →
          (∀ (j m : Nat) (r' : Request) (st' : Status) (p' : List Byte),
            s.contexts[j]? = some (.held r' (.done m st' p')) → j ≠ i → n < m) →
          t.offered = some i ∧ t.sdo = .drive ([0x01, r.tag, r.kind.code, st.code] ++ be16 p.length ++ p ++
            checkBytes ([r.tag, r.kind.code, st.code] ++ be16 p.length ++ p)) 0xFF) ∧
        ((∀ c ∈ s.contexts, c.isDone = false) → t.offered = none ∧ t.sdo = .drive [0x00] 0xFF)) ∧
      (b = 0xA3 → t.sdo = .drive (match s.echo with
        | none => [0x00]
        | some r => [0x01, r.tag, r.kind.code, r.status.code] ++ be16 r.payload.length ++ r.payload ++
            checkBytes ([r.tag, r.kind.code, r.status.code] ++ be16 r.payload.length ++ r.payload)) 0xFF) ∧
      (b = 0xA4 → t.guardHigh = pin ∧ t.sdo = .drive (be32 (s.statusWord pin s.resetArm).toNat ++
        checkBytes (be32 (s.statusWord pin s.resetArm).toNat)) 0xFF) ∧
      (b ≠ 0xA4 → t.guardHigh = s.guardHigh) ∧ (b ≠ 0xA2 → t.offered = none) ∧
      Becomes s t ({ s with guardHigh := t.guardHigh }.linkOf t)) ∧
  (∀ (s : State) (b : Byte) (pin : Bool), LinkIdle s → b ∉ [0xA1, 0xA2, 0xA3, 0xA4, 0xC1, 0xC2, 0xC3, 0xC4] →
    ∃ t, exec (.leadByte ⟨b, pin⟩) s = .next t ∧ t.csLow = true ∧ t.txn = .lead b s.resetArm ∧ t.resetArm = false ∧
      t.leadSdo = some 0xFF ∧ t.sdo = .drive [] 0xFF ∧ t.offered = none ∧
      t.unknownLeads.toNat = min 255 (s.unknownLeads.toNat + 1) ∧
      Becomes s t ({ s with unknownLeads := t.unknownLeads }.linkOf t)) ∧
  (∀ (s : State) (sampled : Bool), s.resetLow = false → s.dev ≠ .deepSleep → s.csLow = true →
    (s.txn = .lead 0xA2 sampled → ∃ t, exec .fetch s = .next t ∧
      t.txn = (match s.offered with | none => .ended | some i => .presence i) ∧
      Becomes s t { s with txn := t.txn, alertLow := t.alertLow }) ∧
    (s.txn = .lead 0xA3 sampled → ∃ t, exec .refetch s = .next t ∧ t.txn = .ended ∧
      Becomes s t { s with txn := t.txn, alertLow := t.alertLow }) ∧
    (s.txn = .lead 0xA4 sampled → ∀ env : Env, ∃ t, exec (.peek env) s = .next t ∧ t.txn = .ended ∧
      Becomes s t { s with txn := t.txn, alertLow := t.alertLow }))

/-- An unknown lead drives FFh until CS# rises, counts one unknown lead, saturating, clears the reset-arm flag and
does nothing else (R6): in an assertion of its own, and in one whose lead point has come already, where it was counted and
is not counted a second time. -/
def Obligations.UnknownLeadOnlyCounts : Prop :=
  (∀ (s : State) (b : Byte), LinkIdle s → b ∉ [0xA1, 0xA2, 0xA3, 0xA4, 0xC1, 0xC2, 0xC3, 0xC4] →
    ∃ t, exec (.unknownLead b) s = .next t ∧ t.csLow = true ∧ t.txn = .ended ∧ t.resetArm = false ∧
      t.sdo = .drive [] 0xFF ∧ t.unknownLeads.toNat = min 255 (s.unknownLeads.toNat + 1) ∧
      Becomes s t ({ s with unknownLeads := t.unknownLeads }.linkOf t)) ∧
  (∀ (s : State) (b : Byte) (sampled : Bool), s.resetLow = false → s.dev ≠ .deepSleep → s.csLow = true →
    s.txn = .lead b sampled → b ∉ [0xA1, 0xA2, 0xA3, 0xA4, 0xC1, 0xC2, 0xC3, 0xC4] →
    ∃ t, exec (.unknownLead b) s = .next t ∧ t.txn = .ended ∧ t.sdo = .drive [] 0xFF ∧
      Becomes s t { s with txn := t.txn, sdo := t.sdo, alertLow := t.alertLow }) ∧
  (∀ (s : State) (b : Byte) (pin : Bool), LinkIdle s → b ∉ [0xA1, 0xA2, 0xA3, 0xA4, 0xC1, 0xC2, 0xC3, 0xC4] →
    ∃ t, exec (.leadByte ⟨b, pin⟩) s = .next t ∧ t.resetArm = false ∧
      t.unknownLeads.toNat = min 255 (s.unknownLeads.toNat + 1) ∧ t.txn = .lead b s.resetArm)

/-- A length above 520 abandons the frame with FRAME_ERROR in every position, and a frame whose check is wrong is
answered FRAME_ERROR in every state the link decodes; each counts one frame error and latches LINK_ERROR_SEEN, and
the Request Manager does not see it (R8, R10, R169). That the alarm shows in RESETTING and MOUNTING at once, R177 having
it there as before the RESET and as recorded by the mount, is the model's reading (log 55). -/
def Obligations.FrameErrorsCountAndLatch : Prop :=
  (∀ (s : State) (kind tag : Byte) (len : Half), LinkIdle s → 520 < len.toNat →
     ∃ t, exec (.overLongFrame kind tag len) s = .next t ∧ t.csLow = true ∧ t.txn = .ended ∧ t.resetArm = false ∧
       t.sdo = .drive [] 0x02 ∧ t.frameErrors.toNat = min 255 (s.frameErrors.toNat + 1) ∧ t.alarms = s.alarms ||| 0x08 ∧
       Becomes s t ({ s with frameErrors := t.frameErrors, alarms := t.alarms }.linkOf t)) ∧
  (∀ (s : State) (kind tag : Byte) (params : List Byte) (chk : Half) (env : Env), LinkIdle s →
     params.length ≤ 520 → check (kind :: tag :: be16 params.length ++ params) ≠ chk →
     ∃ t, exec (.submit kind tag params chk env) s = .next t ∧ t.csLow = true ∧ t.txn = .ended ∧ t.resetArm = false ∧
       t.sdo = .drive [0xFF, 0x02, byteOf (freeCount s.contexts)] 0xFF ∧
       t.frameErrors.toNat = min 255 (s.frameErrors.toNat + 1) ∧ t.alarms = s.alarms ||| 0x08 ∧
       Becomes s t ({ s with frameErrors := t.frameErrors, alarms := t.alarms, guardHigh := t.guardHigh }.linkOf t))

/-- CS# rising inside a SUBMIT frame or before a complement counts one incomplete frame and has no other effect;
CS# rising in any state releases SDO and leaves the decoder idle (R4, R9, R16). -/
def Obligations.TransactionEndReleasesLink : Prop :=
  (∀ (s : State) (b : Byte), LinkIdle s → b ∈ [0xA1, 0xC1, 0xC2, 0xC3, 0xC4] →
     ∃ t, exec (.incompleteFrame b) s = .next t ∧ t.csLow = false ∧ t.txn = .idle ∧ t.sdo = .highZ ∧
       t.resetArm = false ∧ t.incompleteFrames.toNat = min 255 (s.incompleteFrames.toNat + 1) ∧
       Becomes s t ({ s with incompleteFrames := t.incompleteFrames }.linkOf t)) ∧
  (∀ s : State,
     ∃ t, exec .transactionEnd s = .next t ∧ t.csLow = false ∧ t.txn = .idle ∧ t.sdo = .highZ ∧
       t.resetArm = s.resetArm ∧
       t.incompleteFrames.toNat =
         (if s.resetLow = false ∧ s.dev ≠ .deepSleep ∧
             ∃ b ∈ ([0xA1, 0xC1, 0xC2, 0xC3, 0xC4] : List Byte), ∃ a, s.txn = .lead b a
           then min 255 (s.incompleteFrames.toNat + 1) else s.incompleteFrames.toNat) ∧
       Becomes s t ({ s with incompleteFrames := t.incompleteFrames }.linkOf t))

/-- The intake code of an intact frame is the first that fails in the order of R27, with the state check of R28. -/
def Obligations.IntakeCodeIsFirstFailure : Prop :=
  ∀ (s : State) (kind tag : Byte) (params : List Byte) (env : Env), LinkIdle s → params.length ≤ 520 →
    ∃ t free, exec (.submit kind tag params (check (kind :: tag :: be16 params.length ++ params)) env) s = .next t ∧
      t.sdo = .drive [0xFF,
        if s.dev = .mounting ∨ s.dev = .resetting ∨ (s.dev = .running ∧ s.sleepPending = true) then 0x01
        else if s.dev = .faulted ∧ kind ∉ [0x01, 0x06, 0x07, 0x08, 0x09, 0x0C, 0x0D, 0x37] then 0x07
        else if ¬ (1 ≤ kind.toNat ∧ kind.toNat ≤ 0x0D ∨ 0x20 ≤ kind.toNat ∧ kind.toNat ≤ 0x25 ∨
            0x30 ≤ kind.toNat ∧ kind.toNat ≤ 0x38 ∨ 0x3A ≤ kind.toNat ∧ kind.toNat ≤ 0x3C) then 0x03
        else if ∃ c ∈ s.contexts, c.hasTag tag = true then 0x04
        else if ∀ c ∈ s.contexts, c.isFree = false then 0x05
        else if 0x20 ≤ kind.toNat ∧ 6 ≤ mediaCount s.contexts then 0x06
        else 0x00, byteOf free] 0xFF ∧ free = freeCount t.contexts

/-- A SUBMIT that is not ACCEPTED leaves no trace in the Request Manager and raises no event; the free count driven
is the one before the frame; a FRAME_ERROR counts and latches, and the reset-arm flag is clear (R33). The second
part is the frame abandoned for its length, which has no free count. -/
def Obligations.RejectedSubmitLeavesNoTrace : Prop :=
  (∀ (s t : State) (kind tag : Byte) (params : List Byte) (chk : Half) (env : Env) (code free : Byte), LinkIdle s →
    params.length ≤ 520 → exec (.submit kind tag params chk env) s = .next t →
    t.sdo = .drive [0xFF, code, free] 0xFF → code ≠ 0x00 →
    free = byteOf (freeCount s.contexts) ∧ t.contexts = s.contexts ∧ t.resetArm = false ∧
      (code = 0x02 → t.frameErrors.toNat = min 255 (s.frameErrors.toNat + 1) ∧ t.alarms = s.alarms ||| 0x08) ∧
      (code ≠ 0x02 → t.frameErrors = s.frameErrors ∧ t.alarms = s.alarms) ∧
      Becomes s t ({ s with frameErrors := t.frameErrors, alarms := t.alarms, guardHigh := t.guardHigh }.linkOf t)) ∧
  (∀ (s : State) (kind tag : Byte) (len : Half), LinkIdle s → 520 < len.toNat →
    ∃ t, exec (.overLongFrame kind tag len) s = .next t ∧ t.contexts = s.contexts ∧ t.resetArm = false ∧
      t.frameErrors.toNat = min 255 (s.frameErrors.toNat + 1) ∧ t.alarms = s.alarms ||| 0x08 ∧
      Becomes s t ({ s with frameErrors := t.frameErrors, alarms := t.alarms }.linkOf t))

/-- An accepted media request, carried by SUBMIT, waits QUEUED in the lowest FREE context with the next acceptance
number and no other change, its armed mark as R141 sets it (R32, R141). -/
def Obligations.SubmitQueuesMediaRequest : Prop :=
  ∀ (s : State) (k : Kind) (tag : Byte) (params : List Byte) (env : Env), k.isMedia = true → Accepts s tag →
    mediaCount s.contexts < 6 → params.length ≤ 520 →
    ∃ t i, exec (.submit k.code tag params (check (k.code :: tag :: be16 params.length ++ params)) env) s = .next t ∧
      AcceptedOnLink s t ∧ LowestFree s i ∧ t.nextAcceptance = s.nextAcceptance + 1 ∧
      t.nextCompletion = s.nextCompletion ∧ t.armLatch = none ∧
      t.contexts = s.contexts.set i (.held ⟨tag, k, params,
        decide (k ∈ [.deleteStream, .format, .commitProfiles, .setOwnerLabel, .fixGuard] ∧
          ∃ p, s.armLatch = some p ∧ p.kind = k ∧ (k = .deleteStream → params.head? = some p.id)),
        s.nextAcceptance⟩ .queued) ∧
      Becomes s t (s.requestOf t)

/-- A FETCH offers the DONE context with the lowest completion number: presence 01h, the reply frame and its
check, nothing being freed yet; with no context DONE it drives presence 00h and changes nothing, the echo buffer
included (R12, R42). -/
def Obligations.FetchOffersOldestReply : Prop :=
  (∀ (s : State) (i n : Nat) (r : Request) (st : Status) (payload : List Byte), LinkIdle s →
     s.contexts[i]? = some (.held r (.done n st payload)) →
     (∀ (j m : Nat) (r' : Request) (st' : Status) (p' : List Byte), s.contexts[j]? = some (.held r' (.done m st' p')) →
       j ≠ i → n < m) →
     ∃ t, exec .fetch s = .next t ∧ t.csLow = true ∧ t.txn = .presence i ∧ t.resetArm = false ∧
       t.sdo = .drive ([0x01, r.tag, r.kind.code, st.code] ++ be16 payload.length ++ payload ++
         checkBytes ([r.tag, r.kind.code, st.code] ++ be16 payload.length ++ payload)) 0xFF ∧
       Becomes s t (s.linkOf t)) ∧
  (∀ s : State, LinkIdle s → (∀ c ∈ s.contexts, c.isDone = false) →
     ∃ t, exec .fetch s = .next t ∧ t.csLow = true ∧ t.txn = .ended ∧ t.resetArm = false ∧
       t.sdo = .drive [0x00] 0xFF ∧ Becomes s t (s.linkOf t))

/-- When the presence byte has been shifted out the reply is in the echo buffer and its context is FREE (R13, R42), with
the FETCH row or before it, when only the lead byte A2h has come; the rest of the reply frame and its check follow, and then
FFh (R4, R12). The second part is the whole of it, from the lead point that chooses the reply to the delivery. -/
def Obligations.DeliveryFreesContext : Prop :=
  (∀ (s : State) (i n : Nat) (r : Request) (st : Status) (payload : List Byte), s.resetLow = false →
    s.dev ≠ .deepSleep → (s.txn = .presence i ∨ s.offered = some i ∧ ∃ sampled, s.txn = .lead 0xA2 sampled) →
    s.contexts[i]? = some (.held r (.done n st payload)) →
    ∃ t, exec .replyDelivery s = .next t ∧ t.echo = some ⟨r.tag, r.kind, st, payload⟩ ∧
      t.contexts = s.contexts.set i .free ∧ t.txn = .ended ∧
      (∀ frame, s.sdo = .drive (0x01 :: frame) 0xFF → t.sdo = .drive frame 0xFF) ∧
      Becomes s t { s with echo := t.echo, contexts := t.contexts, txn := t.txn, sdo := t.sdo, alertLow := t.alertLow }) ∧
  (∀ (s : State) (i n : Nat) (r : Request) (st : Status) (payload : List Byte) (c : Instr), LinkIdle s →
    s.contexts[i]? = some (.held r (.done n st payload)) →
    (∀ (j m : Nat) (r' : Request) (st' : Status) (p' : List Byte), s.contexts[j]? = some (.held r' (.done m st' p')) →
      j ≠ i → n < m) →
    (c = .fetch ∨ ∃ pin, c = .leadByte ⟨0xA2, pin⟩) →
    ∃ u t, exec c s = .next u ∧ exec .replyDelivery u = .next t ∧ t.csLow = true ∧ t.txn = .ended ∧ t.resetArm = false ∧
      t.sdo = .drive ([r.tag, r.kind.code, st.code] ++ be16 payload.length ++ payload ++
        checkBytes ([r.tag, r.kind.code, st.code] ++ be16 payload.length ++ payload)) 0xFF ∧
      t.echo = some ⟨r.tag, r.kind, st, payload⟩ ∧ t.contexts = s.contexts.set i .free ∧
      Becomes s t ({ s with echo := t.echo, contexts := t.contexts }.linkOf t))

/-- A REFETCH returns the echo buffer in the shape of a FETCH, or presence 00h, and changes nothing (R14). -/
def Obligations.RefetchRepeatsEcho : Prop :=
  ∀ s : State, LinkIdle s →
    ∃ t, exec .refetch s = .next t ∧ t.csLow = true ∧ t.txn = .ended ∧ t.resetArm = false ∧
      t.sdo = .drive (match s.echo with
        | none => [0x00]
        | some r => [0x01, r.tag, r.kind.code, r.status.code] ++ be16 r.payload.length ++ r.payload ++
            checkBytes ([r.tag, r.kind.code, r.status.code] ++ be16 r.payload.length ++ r.payload)) 0xFF ∧
      Becomes s t (s.linkOf t)

/-- A PEEK drives the status word, most significant byte first, and its check, and changes nothing but the
reset-arm flag (R15); the fields of the word, bit by bit (R176), the guard being engaged when a guard-fix cell is blown
or the mode is PIN with GUARD# low (R130, R131). The sizes of the counts and of the index are premises of the second
part: they are what R23 and R123 give them. In FAULTED, and in RESETTING after it, the index shown is the one the mount
selected, and writes inhibited is that profile's (R177), whatever a FORMAT has selected since (log 49). What the fallback
flag holds in RESETTING and the active profile in MOUNTING is in part the model's choice (logs 44 and 45). That the alarm
bits are the alarms as they stand in RESETTING and MOUNTING too, the LINK_ERROR_SEEN of a frame error there showing at
once, is the model's reading of R177, which has the alarms there as before the RESET and as recorded by the mount
(DEDUCED, log 55). -/
def Obligations.PeekCapturesStatusWord : Prop :=
  (∀ (s : State) (env : Env), LinkIdle s →
     ∃ t, exec (.peek env) s = .next t ∧ t.csLow = true ∧ t.txn = .ended ∧ t.resetArm = false ∧
       t.sdo = .drive (be32 (s.statusWord env.guardHigh s.resetArm).toNat ++
         checkBytes (be32 (s.statusWord env.guardHigh s.resetArm).toNat)) 0xFF ∧
       Becomes s t ({ s with guardHigh := t.guardHigh }.linkOf t)) ∧
  (∀ (s : State) (guard armed : Bool), s.contexts.length = 8 → s.committed.activeProfile ≤ 7 →
     (∀ i, s.faultedProfile = some i → i ≤ 7) →
     let w := s.statusWord guard armed
     let shown := match s.dev, s.faultedProfile with
       | .faulted, some i | .resetting, some i => i
       | _, _ => s.committed.activeProfile
     w.extractLsb' 29 3 = (match s.dev with
       | .mounting => 0 | .running => 1 | .resetting => 2 | .deepSleep => 3 | .faulted => 4) ∧
     w.getLsbD 28 = s.contexts.any Context.isExecuting ∧ w.getLsbD 27 = s.committed.guardEngaged guard ∧
     w.getLsbD 26 = guard ∧ w.getLsbD 25 = armed ∧ w.getLsbD 24 = s.armLatch.isSome ∧
     (w.extractLsb' 20 4).toNat = s.contexts.countP Context.isFree ∧
     (w.extractLsb' 16 4).toNat = s.contexts.countP Context.isDone ∧
     w.getLsbD 15 = !s.events.isEmpty ∧ w.getLsbD 14 = (s.overflow != 0) ∧ w.getLsbD 13 = s.timeUnset ∧
     w.getLsbD 12 = s.committed.sample.fallback ∧ w.getLsbD 11 = !(s.committed.profile shown).permits ∧
     (w.extractLsb' 8 3).toNat = shown ∧ w.getLsbD 7 = s.poolLow ∧
     w.getLsbD 6 = s.committed.cat.readOnly ∧ w.extractLsb' 0 6 = s.alarms) ∧
  ∀ (c : Committed) (pin : Bool), c.guardEngaged pin = true ↔
    c.fuse.guardA = .blown ∨ c.fuse.guardB = .blown ∨ c.tables.settings.guardMode = 0x0001 ∧ pin = false

/-! ### Control transactions, sleep, resets, time -/

/-- A control transaction whose complement byte is wrong counts one unknown lead and has no other effect, in every
state the link decodes (R16). -/
def Obligations.WrongComplementOnlyCounts : Prop :=
  ∀ (s : State) (x : Byte) (rb : ReadBack) (c : Instr), LinkIdle s →
    (c = .sleep x ∧ x ≠ 0x3E ∨ c = .wake x ∧ x ≠ 0x3D ∨ c = .resetArm x ∧ x ≠ 0x3C ∨ c = .reset x rb ∧ x ≠ 0x3B) →
    ∃ t, exec c s = .next t ∧ t.csLow = true ∧ t.txn = .ended ∧ t.resetArm = false ∧ t.sdo = .drive [] 0xFF ∧
      t.unknownLeads.toNat = min 255 (s.unknownLeads.toNat + 1) ∧
      Becomes s t ({ s with unknownLeads := t.unknownLeads }.linkOf t)

/-- SLEEP: DONE begins sleep pending and clears the arm latch, REFUSED and IGNORED change nothing (R159, R160).
Entry to DEEP_SLEEP, once no background operation is in progress: the reset-arm flag is cleared, SDO and ALERT# are
released, an open transaction is cut off, and everything else is kept (R17, R160, R161). -/
def Obligations.SleepIsDecidedThenEntered : Prop :=
  (∀ s : State, LinkIdle s →
     ∃ t, exec (.sleep 0x3E) s = .next t ∧ t.csLow = true ∧ t.txn = .ended ∧ t.resetArm = false ∧
       (if s.dev = .running ∧ s.sleepPending = false ∧ (∀ c ∈ s.contexts, c.isQueued = false ∧ c.isExecuting = false)
         then t.sdo = .drive [0x00] 0xFF ∧ Becomes s t ({ s with sleepPending := true, armLatch := none }.linkOf t)
         else t.sdo = .drive [if s.dev = .running ∧ s.sleepPending = true then 0x02 else 0x01] 0xFF ∧
           Becomes s t (s.linkOf t))) ∧
  (∀ s : State, s.dev = .running → s.sleepPending = true → s.job = none → s.resetLow = false →
     ∃ t, exec .enterDeepSleep s = .next t ∧ t.dev = .deepSleep ∧ t.sleepPending = false ∧ t.resetArm = false ∧
       t.sdo = .highZ ∧ t.alertLow = false ∧ (s.csLow = true → ∃ l, t.txn = .noTransaction l) ∧
       Becomes s t ({ s with dev := t.dev, sleepPending := t.sleepPending }.linkOf t))

/-- A WAKE in DEEP_SLEEP: RUNNING from that instant, TIME_UNSET and the due mark set, no result byte, the rest
kept, the array not ready yet; in any other state IGNORED (R162). In DEEP_SLEEP a WAKE with a wrong complement, or one
in an assertion that began before the entry, is not heard: nothing but the decoder changes (R21, R160). WAKE_READY: the
array and the sensor bus are ready (R162). -/
def Obligations.WakeReturnsToRunning : Prop :=
  ((∀ s : State, s.dev = .deepSleep → s.resetLow = false → s.csLow = false → s.txn = .idle →
     ∃ t, exec (.wake 0x3D) s = .next t ∧ t.dev = .running ∧ t.timeUnset = true ∧ t.ready = false ∧ t.sdo = .highZ ∧
       t.csLow = true ∧ t.txn = .ended ∧ t.resetArm = s.resetArm ∧
       t.committed = { s.committed with sample := { s.committed.sample with dueMark := true } } ∧
       Becomes s t ({ s with dev := t.dev, timeUnset := t.timeUnset, ready := t.ready,
                             committed := t.committed }.linkOf t)) ∧
     ∀ s : State, LinkIdle s →
       ∃ t, exec (.wake 0x3D) s = .next t ∧ t.csLow = true ∧ t.txn = .ended ∧ t.resetArm = false ∧
         t.sdo = .drive [0x02] 0xFF ∧ Becomes s t (s.linkOf t)) ∧
  (∀ (s : State) (x : Byte), s.dev = .deepSleep → s.resetLow = false → s.sdo = .highZ → s.alertLow = false →
     (x ≠ 0x3D ∧ s.csLow = false ∧ s.txn = .idle ∨ s.csLow = true ∧ s.txn = .noTransaction (some 0xC2)) →
     ∃ t, exec (.wake x) s = .next t ∧ t.dev = .deepSleep ∧ t.sdo = .highZ ∧ t.csLow = true ∧ t.resetArm = s.resetArm ∧
       (s.csLow = false → t.txn = .ended) ∧ (s.csLow = true → t.txn = s.txn) ∧
       Becomes s t { s with csLow := t.csLow, txn := t.txn, leadSdo := t.leadSdo }) ∧
  (∀ s : State, s.dev = .running → s.resetLow = false →
     ∃ t, exec .wakeReady s = .next t ∧ t.ready = true ∧
       Becomes s t { s with ready := t.ready, alertLow := t.alertLow })

/-- A whole RESET_ARM sets the reset-arm flag and returns DONE in every state the link decodes (R17). A RESET acts
exactly if the flag was set at its lead point: RESETTING, contexts, echo, arm latch and link statistics emptied, the
counter at 0 with TIME_UNSET set, ALERT# released, a pending sleep cancelled, a program or fuse operation left to
finish and an erase or sensor attempt abandoned, the bus being released without a STOP, and of the array nothing but the
segment of that erase changing, and what a PEEK shows of pool, profile, events and alarms as before the RESET (R177);
otherwise REFUSED and nothing changes (R18, R167, R168). Two clauses are the model's choice: the record of the released bus (log 25), and that committed
state stands whole, the fallback flag with it, until the mount (log 44). -/
def Obligations.ResetActsOnlyArmed : Prop :=
  (∀ s : State, LinkIdle s →
     ∃ t, exec (.resetArm 0x3C) s = .next t ∧ t.csLow = true ∧ t.txn = .ended ∧ t.resetArm = true ∧
       t.sdo = .drive [0x00] 0xFF ∧ Becomes s t (s.linkOf t)) ∧
  (∀ (s : State) (rb : ReadBack), LinkIdle s →
     ∃ t, exec (.reset 0x3B rb) s = .next t ∧ t.csLow = true ∧ t.txn = .ended ∧ t.resetArm = false ∧
       (s.resetArm = false → t.sdo = .drive [0x01] 0xFF ∧ Becomes s t (s.linkOf t)) ∧
       (s.resetArm = true → t.sdo = .drive [0x00] 0xFF ∧ t.dev = .resetting ∧ t.sleepPending = false ∧
         t.contexts = List.replicate 8 .free ∧ t.echo = none ∧ t.armLatch = none ∧ t.frameErrors = 0 ∧
         t.incompleteFrames = 0 ∧ t.unknownLeads = 0 ∧ t.tick = 0 ∧ t.timeUnset = true ∧ t.tickPeriod = 10 ∧
         t.alertLow = false ∧ t.events = s.events ∧ t.alarms = s.alarms ∧ t.overflow = s.overflow ∧
         t.committed = s.committed ∧ t.fuses = s.fuses ∧ t.poolLow = s.poolLow ∧ t.faultedProfile = s.faultedProfile ∧
         (∀ j, s.job = some j → OnlyTarget s t j.op) ∧
         (∀ j, s.job = some j → j.op.isErase = false → j.op ≠ .sensor → t.job = s.job) ∧
         (∀ j, s.job = some j → (j.op.isErase = true ∨ j.op = .sensor) → t.job = none) ∧
         (∀ j, s.job = some j → t.sensorLog = if j.op = .sensor then [.release] else s.sensorLog) ∧
         ((∀ j, s.job = some j → j.op.isErase = false) →
           t.catSegs = s.catSegs ∧ ∀ a, readByte t.flash a = readByte s.flash a)))

/-- In RESETTING the operation left to finish ends, lands in its own target and changes no context, event or alarm; an entry
that verifies stands in its position, and any other spends it (R47, R60): of a unit of two the
second follows a first that verified (body and mark, marker and contents, attempt cell and guard-fix cell), and nothing
follows any other (R102, R144, R150, R152, R168); that nothing follows a failure is the model's (log 26). The end of the
drain, the rise of RESET# and the supply coming up with RESET# high each start the mount. Its steps 1 to 5, one step of the
model (log 22), take the profile table, its origin and the working copies from the fuse store (R143, R145, R146, R147,
R151), and report what they find there and in the last used slots of the streams, in that order and with the alarms (R148,
section 8.1; R172). Nothing is programmed; an operation that RESET# or the supply stops may change its own target only, and an entry so
stopped records nothing (R60, R170). The end of the drain empties events and alarms first and keeps the time (R168);
the others leave the counter at 0, TIME_UNSET set, the link statistics, latch and flag clear and every context FREE (R22,
R170, R175). The model's choices among these clauses: the age 0 of the absent sample (log 27), the label's bytes behind a
programmed marker (log 19), that a guard-fix cell found failed latches no alarm (log 48), and that with RESET# low the
supply coming up does what a hardware reset does (log 33). -/
def Obligations.MountStartsAfterResets : Prop :=
  (∀ s : State, s.dev = .resetting → s.resetLow = false → s.job = none →
     ∃ t, exec .drainEnd s = .next t ∧ MountBegun t ∧ t.dev = .mounting ∧ t.tick = s.tick ∧
       t.timeUnset = s.timeUnset ∧ t.mountSampled = false ∧ t.poolLow = false ∧ t.poolLowArmed = true ∧
       t.committed.sample = Sample.initial ∧ t.committed.activeProfile = 0 ∧ t.alertLow = false ∧
       t.events.map Event.number = (List.range t.events.length).map (BitVec.ofNat 16) ∧
       (∀ e ∈ t.events, e.what.kind = .fuseFault ∨ e.what.kind = .tornRecord) ∧
       (t.alarms.getLsbD 2 = true ↔ ∃ e ∈ t.events, e.what.kind = .fuseFault) ∧
       (t.alarms.getLsbD 5 = true ↔ 0 < t.tornFound) ∧ t.alarms &&& 0x1B = 0 ∧
       t.catSegs = s.catSegs ∧ t.fuses = s.fuses ∧ t.contexts = s.contexts ∧ t.txn = s.txn ∧ t.sdo = s.sdo ∧
       ∀ a, readByte t.flash a = readByte s.flash a) ∧
  (∀ (s : State) (rb : ReadBack) (supply : Bool), s.resetLow = !supply →
     ∃ t, exec (.resetRelease supply rb) s = .next t ∧ MountBegun t ∧ t.resetLow = false ∧ t.dev = .mounting ∧
       t.tick = 0 ∧ t.timeUnset = true ∧ t.frameErrors = 0 ∧ t.incompleteFrames = 0 ∧ t.unknownLeads = 0 ∧
       t.armLatch = none ∧ t.resetArm = false ∧ t.echo = none ∧ t.contexts = List.replicate 8 .free ∧ t.job = none ∧
       t.alertLow = false ∧ t.sdo = .highZ ∧ (∀ e ∈ t.events, e.what.kind = .fuseFault ∨ e.what.kind = .tornRecord) ∧
       t.alarms &&& 0x1B = 0 ∧ t.committed.sample = Sample.initial ∧ t.committed.activeProfile = 0 ∧
       (s.csLow = true → ∃ l, t.txn = .noTransaction l) ∧ OnlyStopped s t) ∧
  (∀ (s : State) (rb : ReadBack), s.resetLow = true →
    ∃ t, exec (.resetRelease true rb) s = .next t ∧ exec (.hardwareReset true rb) s = .next t ∧ t.resetLow = true) ∧
  (∀ (s : State) (task : Machine.Task) (op : Operation) (stage : Stage) (rb : ReadBack) (trip : Bool),
     s.dev = .resetting → s.job = some ⟨task, op, stage⟩ → op.isArray = true → ArrayForm s →
     ∃ t, exec (if trip then .arrayWatchdogTrip rb else .arrayOperationComplete rb) s = .next t ∧
       t = { s with job := t.job, flash := t.flash, catSegs := t.catSegs, alertLow := t.alertLow } ∧ OnlyTarget s t op ∧
       (∀ cells timing, op = .program cells timing → rb = .asIntended → (cells.map Prod.fst).Nodup →
         ∀ x ∈ cells, readByte t.flash x.1 = x.2) ∧
       (∀ k pos e timing, op = .catEntry k pos e timing →
         (trip = false → rb = .asIntended → PositionHolds s t k pos (.entry e)) ∧
         (trip = true ∨ rb ≠ .asIntended → ∃ erased, PositionHolds s t k pos (.spent erased))) ∧
       (∀ a seg slot cells timing, stage = .body a seg slot → op = .program cells timing →
         (cells.map Prod.fst).Nodup →
         let ok := trip = false ∧ ∀ x ∈ cells, readByte t.flash x.1 = x.2
         (ok → t.job = some ⟨task,
           .program [(seg * 32768 + 512 + slot * (task.work.tables.stream a.id).slotSize + 7, 0x5A)]
             (task.work.profile task.work.activeProfile).programClass, .mark a seg slot⟩) ∧
         (¬ ok → t.job = none)) ∧
       ((∀ a seg slot, stage ≠ .body a seg slot) → (∀ x, stage ≠ .guardAttempt x) → (∀ x, stage ≠ .bankMarker x) →
         (∀ x, stage ≠ .labelMarker x) → t.job = none)) ∧
  ∀ (s : State) (task : Machine.Task) (op : Operation) (stage : Stage) (rb : ReadBack),
     s.dev = .resetting → s.job = some ⟨task, op, stage⟩ → op.isFuse = true →
     ∃ t, exec (.fuseOperationComplete rb) s = .next t ∧
       t = { s with job := t.job, fuses := t.fuses, alertLow := t.alertLow } ∧
       (∀ cell, op = .fuseCell cell →
         t.fuses = (if rb = .asIntended then s.fuses.afterCell cell .asIntended else s.fuses) ∧
         let ok := t.fuses.cell cell = true
         (∀ second, stage = .guardAttempt second →
           (ok → t.job = some ⟨task, .fuseCell (if second then .cellB else .cellA), .guardFix second⟩) ∧
           (¬ ok → t.job = none)) ∧
         (∀ second, stage = .bankMarker second →
           (ok → t.job = some ⟨task, .fuseBytes (if second then .bankB else .bankA) (bankBytes task.work.profiles),
             .bankContents second⟩) ∧
           (¬ ok → t.job = none)) ∧
         ∀ bytes, stage = .labelMarker bytes →
           (ok → t.job = some ⟨task, .fuseBytes .label (bytes ++ checkBytes bytes), .labelContents bytes⟩) ∧
           (¬ ok → t.job = none)) ∧
       (∀ ar bytes, op = .fuseBytes ar bytes → (rb = .asIntended → t.fuses.area ar = some bytes) ∧
         (∀ x, t.fuses.cell x = s.fuses.cell x) ∧ ∀ x, x ≠ ar → t.fuses.area x = s.fuses.area x) ∧
       ((∀ a seg slot, stage ≠ .body a seg slot) → (∀ x, stage ≠ .guardAttempt x) → (∀ x, stage ≠ .bankMarker x) →
         (∀ x, stage ≠ .labelMarker x) → t.job = none)

/-- RESET# low for 1 us or longer stops everything: SDO and ALERT# released, contexts, echo, latch, flag, link
statistics, events and alarms cleared, the counter at 0 with TIME_UNSET set, no operation in progress; committed
state stands, and the array and the fuse store but for the target of an operation stopped where it stood, an entry so
stopped recording nothing (R22, R45, R60, R144, R150, R170). A shorter pulse makes a complete reset or has no effect, as the device chooses (log 17: a free value). -/
def Obligations.HardwareResetStopsEverything : Prop :=
  (∀ (s : State) (rb : ReadBack),
     ∃ t, exec (.hardwareReset true rb) s = .next t ∧ t.resetLow = true ∧ t.job = none ∧ t.sdo = .highZ ∧
       t.alertLow = false ∧ t.contexts = List.replicate 8 .free ∧ t.echo = none ∧ t.armLatch = none ∧
       t.resetArm = false ∧ t.frameErrors = 0 ∧ t.incompleteFrames = 0 ∧ t.unknownLeads = 0 ∧ t.tick = 0 ∧
       t.timeUnset = true ∧ t.events = [] ∧ t.nextEvent = 0 ∧ t.overflow = 0 ∧ t.alarms = 0 ∧ t.sleepPending = false ∧
       (s.csLow = true → ∃ l, t.txn = .noTransaction l) ∧ (s.csLow = false → t.txn = .idle) ∧
       t.committed = s.committed ∧ OnlyStopped s t) ∧
  (∀ (s : State) (rb : ReadBack), AlertFollows s →
     ∃ t, exec (.hardwareReset false rb) s = .next t ∧ t.freeDraws = s.freeDraws + 1 ∧
       (Becomes s t { s with freeDraws := t.freeDraws } ∨
         exec (.hardwareReset true rb) { s with freeDraws := s.freeDraws + 1 } = .next t))

/-- The mount applies the entries of the newest valid image in position order, and takes a wholly erased catalogue
area for a fresh device and any other without a valid image for a faulted one (R64, R171). That is what the end of the
drain, the rise of RESET# and the supply coming up with RESET# high rebuild from the array: outcome, catalogue position,
streams completed from their newest segments, settings in effect, and the FREE segments with a descriptor made DIRTY, in
rising index after all others; of two images of one generation nothing is said (log 12). The rebuilding is one step with
the rest of steps 1 to 5 (log 22) (R54, R64, R76, R163, R171, R173). R84 and R174 give a faulted device no tables: that it
holds those of a fresh device until a FORMAT builds others is the model's choice (log 24), and so is the write position 0 of
a stream with an empty list, which has no meaning (log 46). That an area reading erased is fresh, also after a FORMAT in
FAULTED cut off before a mark, is its reading of R64 against R174 (log 54), and that a closure which no suspect entry
records ends with the mount its reading of R72 and R76 (log 42). -/
def Obligations.MountTakesNewestImage : Prop :=
  (∀ (segs : List CatSegment) (k : Nat) (g : Word) (image : Tables) (c : CatSegment), segs.length = 4 → segs[k]? = some c →
    c.mark = true → c.generation = some g → c.image = some image →
    (∀ j d g', segs[j]? = some d → j ≠ k → d.mark = true → d.image ≠ none → d.generation = some g' → g'.toNat < g.toNat) →
    rebuild segs =
      (c.positions.foldl (fun tb p => match p with
          | .entry e => applyEntry tb e
          | .spent _ => tb) image,
        ⟨some k, (c.positions.reverse.dropWhile Position.readsErased).length, g, false⟩, .image)) ∧
  (∀ segs : List CatSegment, segs.length = 4 →
    (∀ c ∈ segs, ¬ (c.mark = true ∧ c.generation ≠ none ∧ c.image ≠ none)) →
    (rebuild segs).1 = Tables.fresh ∧ (rebuild segs).2.1 = ⟨none, 0, 0, false⟩ ∧
      ((∀ c ∈ segs, c.generation = none ∧ c.pages = 0 ∧ c.image = none ∧ c.mark = false ∧ c.soiled = false ∧
          ∀ p ∈ c.positions, p = .spent true) → (rebuild segs).2.2 = .fresh) ∧
      (¬ (∀ c ∈ segs, c.generation = none ∧ c.pages = 0 ∧ c.image = none ∧ c.mark = false ∧ c.soiled = false ∧
          ∀ p ∈ c.positions, p = .spent true) → (rebuild segs).2.2 = .faulted)) ∧
  (∀ s : State, s.dev = .resetting → s.resetLow = false → s.job = none →
    ∃ t, exec .drainEnd s = .next t ∧ MountRead t ∧ t.catSegs = s.catSegs ∧ t.flash = s.flash) ∧
  (∀ (s : State) (rb : ReadBack) (supply : Bool), s.resetLow = !supply →
    ∃ t, exec (.resetRelease supply rb) s = .next t ∧ MountRead t ∧
      (s.job = none → t.catSegs = s.catSegs ∧ t.flash = s.flash)) ∧
  ∀ (m : List Host.Cell) (x : Machine.Stream),
    (x.state = .absent → recoverStream m x = x) ∧
    (x.state ≠ .absent → x.segs = [] →
      recoverStream m x = { x with next := x.recordedNext, writePos := 0, closed := false, cursor := x.oldest }) ∧
    ∀ l, x.state ≠ .absent → x.segs.getLast? = some l → Memory.wf m = true → x.slotSize ∈ [64, 128, 256, 512] →
      ∃ w, recoverStream m x = { x with
          next := l.firstSeq + (List.range (63 * (512 / x.slotSize))).countP
            (fun i => readByte m (l.seg * 32768 + 512 + i * x.slotSize + 7) == 0x5A)
          writePos := w
          closed := false
          cursor := x.oldest } ∧
        w ≤ 63 * (512 / x.slotSize) ∧
        (∀ i, w ≤ i → i < 63 * (512 / x.slotSize) → ∀ b < x.slotSize,
          readByte m (l.seg * 32768 + 512 + i * x.slotSize + b) = 0xFF) ∧
        (0 < w → ∃ b < x.slotSize, readByte m (l.seg * 32768 + 512 + (w - 1) * x.slotSize + b) ≠ 0xFF)

/-- The end of the mount, whatever the source, once an external attempt has ended: an INTERNAL source gives the die's value
as the first sample, an external one has given its own, and HOST leaves the sample as it is (R114, R118, R173); the profile
is selected for a first value, with PROFILE_CHANGED for a change (R124); outside FAULTED the read-only condition is that of
one usable segment with fewer than 8 positions left (R63, R64), CATALOGUE_DEGRADED is raised and latched at a usable count
of 1 (R62, R173), and the pool level is compared (R66); MOUNTED is the last event, and the device is RUNNING, or FAULTED if
the mount found no catalogue, step 8 being passed by (R173, figure 9-1), with the profile as selected now to be shown there (R177). Nothing is programmed. The model's choices: steps
6 to 10 in one step (log 22), 6 and 7 with an external attempt (log 45), no pool comparison in FAULTED (log 30). -/
def Obligations.MountCompletes : Prop :=
  ∀ (s : State) (env : Env), s.dev = .mounting → s.resetLow = false →
    (s.mountSampled = true ∨ s.committed.activeSource ≠ .external) → s.events.length ≤ 12 →
    let now : Stamp := ⟨s.tick, s.timeUnset⟩
    let c := s.committed
    let tb := c.tables
    let v := dieValue env.die
    let first := decide (s.mountSampled = false ∧ c.activeSource = .internal)
    let sampled := if first then c.sampled v .internal else c
    let changed := if first then changeOf c now sampled.activeProfile v else []
    let one := tb.usable.countP (· == true) = 1
    let faulted := s.mountOutcome = .faulted
    let threshold := tb.settings.poolLowThreshold.toNat
    let degraded : List Raised := if one ∧ ¬ faulted then [⟨.catalogueDegraded, now, 0x01, 0xFFFFFFFF⟩] else []
    let low : List Raised := if tb.available < threshold ∧ s.poolLowArmed = true ∧ ¬ faulted then
      [⟨.poolLow, now, byteOf threshold, BitVec.ofNat 32 tb.available⟩] else []
    let streams := if s.mountOutcome = .image then tb.streams.countP (fun x => x.state != .absent) else 0
    let mounted : Raised := ⟨.mounted, now, byteOf s.tornFound, BitVec.ofNat 32
      ((match s.mountOutcome with | .image => 0 | .fresh => 1 | .faulted => 2) * 65536 + streams)⟩
    ∃ t, exec (.mountComplete env) s = .next t ∧ t.dev = (if faulted then .faulted else .running) ∧
      t.committed = (if faulted then sampled else { sampled with cat := { c.cat with
        readOnly := decide (one ∧ c.cat.active ≠ none ∧ 768 < c.cat.fill + 8) } }) ∧
      t.events.map Event.what = s.events.map Event.what ++ changed ++ degraded ++ low ++ [mounted] ∧
      t.alarms = s.alarms ||| (if one ∧ ¬ faulted then 0x10 else 0) ∧
      t.poolLow = (if faulted then s.poolLow else decide (tb.available < threshold)) ∧
      t.poolLowArmed = (if faulted then s.poolLowArmed else decide (threshold ≤ tb.available)) ∧
      t = { s with
        dev := t.dev
        guardHigh := env.guardHigh
        committed := t.committed
        mountSampled := t.mountSampled
        events := t.events
        nextEvent := t.nextEvent
        alarms := t.alarms
        poolLow := t.poolLow
        poolLowArmed := t.poolLowArmed
        faultedProfile := if faulted then some sampled.activeProfile else none
        alertLow := t.alertLow } ∧
      ∀ a, readByte t.flash a = readByte s.flash a

/-- The tick counter counts, wrapping, and the age of a present sample advances, saturating at FFFFFFFEh, in
MOUNTING, RUNNING, RESETTING and FAULTED; both stand in DEEP_SLEEP and while RESET# is low (R112, R163). The sample in the
working copy of work in progress ages with the committed one, and nothing else of that work changes. An absent sample's age
is the model's choice (log 27). -/
def Obligations.TicksAndMillisecondsCount : Prop :=
  (∀ s : State, ∃ t, exec .tick s = .next t ∧
     t.tick = (if s.resetLow = false ∧ s.dev ≠ .deepSleep then s.tick + 1 else s.tick) ∧
     Becomes s t { s with tick := t.tick, alertLow := t.alertLow }) ∧
  (∀ s : State,
     let older : Machine.Sample → Machine.Sample := fun x =>
       if x.value = none then x else { x with age := if x.age < 0xFFFFFFFE then x.age + 1 else 0xFFFFFFFE }
     ∃ t, exec .sampleAgeTick s = .next t ∧
     (s.resetLow = false → s.dev ≠ .deepSleep →
       t.committed.sample = older s.committed.sample ∧ (s.job = none → t.job = none) ∧
         ∀ j, s.job = some j → t.job = some { j with task := { j.task with work := { j.task.work with
           sample := older j.task.work.sample } } }) ∧
     (s.resetLow = true ∨ s.dev = .deepSleep → t.committed = s.committed ∧ t.job = s.job) ∧
     t.committed = { s.committed with sample := t.committed.sample } ∧
     Becomes s t { s with committed := t.committed, job := t.job, alertLow := t.alertLow })

/-! ### Immediate requests -/

/-- The requests that report committed state, with an empty parameter field: GET_IDENTITY, which FAULTED takes in too (R28),
GET_SETTINGS, POOL_INFO and READ_PROFILES (R67, R127, R153, R157). -/
def Obligations.ReportsReadCommittedState : Prop :=
  (∀ (s : State) (tag : Byte), AcceptsAlsoFaulted s tag →
    let c := s.committed
    ∃ t, exec (.getIdentity tag []) s = .next t ∧
      Answered s t .getIdentity tag [] false .ok
        (c.fuse.identity ++ [if c.fuse.identityOk then 0x00 else 0x01,
          if c.fuse.guardA = .blown then 0x01 else if c.fuse.guardB = .blown then 0x02 else 0x00,
          match c.fuse.bank with | .fresh => 0x00 | .aUsed => 0x01 | .bUsed => 0x02,
          match c.fuse.origin with | .factory => 0x00 | .bankA => 0x01 | .bankB => 0x02,
          match c.fuse.labelState with | .absent => 0x00 | .present => 0x01 | .damaged => 0x02] ++ c.fuse.label) ∧
      Becomes s t (s.requestOf t)) ∧
  ∀ (s : State) (tag : Byte), Accepts s tag →
    let c := s.committed
    (∃ t, exec (.getSettings tag []) s = .next t ∧
      Answered s t .getSettings tag [] false .ok
        (be16 (if c.fuse.guardA = .blown ∨ c.fuse.guardB = .blown then 2 else c.tables.settings.guardMode.toNat) ++
          be16 c.tables.settings.sensorSource.toNat ++ be16 c.tables.settings.sensorAddress.toNat ++
          be16 c.tables.settings.sensorPointer.toNat ++ be16 c.tables.settings.sensorFormat.toNat ++
          be16 c.tables.settings.refreshInterval.toNat ++ be16 c.tables.settings.tickPeriod.toNat ++
          be16 c.tables.settings.alertMask.toNat ++ be16 c.tables.settings.poolLowThreshold.toNat) ∧
      Becomes s t (s.requestOf t)) ∧
    (∃ t, exec (.poolInfo tag []) s = .next t ∧
      (∃ low high, Answered s t .poolInfo tag [] false .ok
          (be16 (c.tables.countSegs .free) ++ be16 (c.tables.countSegs .dirty) ++ be16 (c.tables.countSegs .linked) ++
            be16 (c.tables.countSegs .retired) ++ [byteOf (c.tables.usable.countP (· == true))] ++ be32 low ++
            be32 high ++ be16 c.cat.fill ++ be16 768) ∧
        (∀ e ∈ c.tables.segs.drop 4, e.state ≠ .retired → low ≤ e.eraseCount ∧ e.eraseCount ≤ high) ∧
        ((∀ e ∈ c.tables.segs.drop 4, e.state = .retired) → low = 0xFFFFFFFF ∧ high = 0xFFFFFFFF) ∧
        ((∃ e ∈ c.tables.segs.drop 4, e.state ≠ .retired) →
          (∃ e ∈ c.tables.segs.drop 4, e.state ≠ .retired ∧ e.eraseCount = low) ∧
            ∃ e ∈ c.tables.segs.drop 4, e.state ≠ .retired ∧ e.eraseCount = high)) ∧
      Becomes s t (s.requestOf t)) ∧
    ∃ t, exec (.readProfiles tag []) s = .next t ∧
      Answered s t .readProfiles tag [] false .ok
        (c.profiles.flatMap (fun p => [if p.used then 0x01 else 0x00] ++ be16 p.low.toNat ++ be16 p.high.toNat ++
            [if p.permits then 0x01 else 0x00, byteOf p.programClass, byteOf p.eraseClass]) ++
          [byteOf c.activeProfile,
            match c.fuse.bank with | .fresh => 0x00 | .aUsed => 0x01 | .bUsed => 0x02,
            match c.fuse.origin with | .factory => 0x00 | .bankA => 0x01 | .bankB => 0x02]) ∧
      Becomes s t (s.requestOf t)

/-- STREAM_INFO of one stream: 44 bytes, all 00h after the id for an ABSENT one (R86), the free slots 0 where the newest
segment is closed (R48, R72; whether or not the suspect entry stands is log 42's reading); with FFh, ten bytes of every
stream (R87). -/
def Obligations.StreamInfoReportsStreams : Prop :=
  ∀ (s : State) (tag id : Byte), Accepts s tag →
    let tb := s.committed.tables
    (id.toNat < 16 →
      let st := tb.stream id.toNat
      let free : Nat := match st.segs.getLast? with
        | none => 0
        | some l =>
          if st.state = .opened ∧ (tb.seg l.seg).suspect = false ∧ st.closed = false then
            63 * (512 / st.slotSize) - st.writePos
          else 0
      ∃ t, exec (.streamInfo tag [id]) s = .next t ∧
        Answered s t .streamInfo tag [id] false .ok
          (if st.state = .absent then id :: List.replicate 43 0x00
          else [id, if st.state = .opened then 0x01 else 0x02] ++ be16 st.slotSize ++
            [if st.retention = .wrap then 0x00 else 0x01] ++ be16 st.quota ++
            [(if st.timeOption then 0x01 else 0x00) ||| (if st.tempOption then 0x02 else 0x00),
              if st.hold then 0x01 else 0x00, if st.label.isSome then 0x01 else 0x00] ++
            st.label.getD (List.replicate 8 0x00) ++ be32 st.start ++ be32 st.oldest ++ be32 st.next ++
            be32 st.cursor ++ be16 st.segs.length ++ be16 ((st.segs.head?.map SegLink.seg).getD 0xFFFF) ++
            be16 ((st.segs.getLast?.map SegLink.seg).getD 0xFFFF) ++ be16 free ++
            be16 (st.slotSize - 10 - (if st.timeOption then 4 else 0) - (if st.tempOption then 2 else 0))) ∧
        Becomes s t (s.requestOf t)) ∧
    ∃ t, exec (.streamInfo tag [0xFF]) s = .next t ∧
      Answered s t .streamInfo tag [0xFF] false .ok
        ((List.range 16).flatMap (fun n =>
          if (tb.stream n).state = .absent then byteOf n :: List.replicate 9 0x00
          else [byteOf n, if (tb.stream n).state = .opened then 0x01 else 0x02,
            if (tb.stream n).retention = .wrap then 0x00 else 0x01, if (tb.stream n).hold then 0x01 else 0x00] ++
            be32 ((tb.stream n).next - (tb.stream n).oldest) ++ be16 (tb.stream n).segs.length)) ∧
      Becomes s t (s.requestOf t)

/-- READ_EVENTS returns the oldest events and removes none; RELEASE_EVENTS removes the n oldest and may clear the
overflow counter (R182, R183); CLEAR_ALARMS clears the masked alarms, CATALOGUE_DEGRADED latching again in RUNNING while
the usable count is 1 (R179). FAULTED takes all three in (R28). -/
def Obligations.EventAndAlarmRequests : Prop :=
  (∀ (s : State) (tag n : Byte), AcceptsAlsoFaulted s tag →
     (1 ≤ n.toNat → n.toNat ≤ 8 → ∃ t, exec (.readEvents tag [n]) s = .next t ∧
       Answered s t .readEvents tag [n] false .ok
         ([byteOf (min n.toNat s.events.length), byteOf s.events.length, s.overflow] ++
           (s.events.take n.toNat).flatMap (fun e => be16 e.number.toNat ++ [byteOf e.what.kind.code] ++
             be32 e.what.stamp.tick.toNat ++ [if e.what.stamp.unset then 0x01 else 0x00, e.what.detailA] ++
             be32 e.what.detailB.toNat)) ∧
       Becomes s t (s.requestOf t)) ∧
     ∀ clear : Bool, ∃ t, exec (.releaseEvents tag [n, if clear then 0x01 else 0x00]) s = .next t ∧
       t.events = s.events.drop n.toNat ∧ t.overflow = (if clear then 0 else s.overflow) ∧
       Answered s t .releaseEvents tag [n, if clear then 0x01 else 0x00] false .ok
         [byteOf (min n.toNat s.events.length), byteOf (s.events.length - n.toNat), t.overflow] ∧
       Becomes s t ({ s with events := t.events, overflow := t.overflow }.requestOf t)) ∧
  (∀ (s : State) (tag m : Byte), AcceptsAlsoFaulted s tag → m.toNat < 64 →
     ∃ t, exec (.clearAlarms tag [m]) s = .next t ∧
       (∀ i < 6, t.alarms.getLsbD i = ((s.alarms.getLsbD i && !m.getLsbD i) ||
         decide (i = 4 ∧ s.dev = .running ∧ s.committed.tables.usable.countP (· == true) = 1))) ∧
       Answered s t .clearAlarms tag [m] false .ok [s.alarms.zeroExtend 8, t.alarms.zeroExtend 8] ∧
       Becomes s t ({ s with alarms := t.alarms }.requestOf t))

/-- LINK_STATS with an empty parameter field answers the three counters and zeroes them in the same step; with any
other it answers BAD_PARAM and leaves them. It is taken in FAULTED too (R20). -/
def Obligations.LinkStatsReadsAndClears : Prop :=
  ∀ (s : State) (tag : Byte) (params : List Byte), params.length ≤ 520 → AcceptsAlsoFaulted s tag →
    ∃ t, exec (.linkStats tag params) s = .next t ∧
      (params = [] → t.frameErrors = 0 ∧ t.incompleteFrames = 0 ∧ t.unknownLeads = 0 ∧
        Answered s t .linkStats tag params false .ok [s.frameErrors, s.incompleteFrames, s.unknownLeads]) ∧
      (params ≠ [] → t.frameErrors = s.frameErrors ∧ t.incompleteFrames = s.incompleteFrames ∧
        t.unknownLeads = s.unknownLeads ∧ Answered s t .linkStats tag params false .badParam []) ∧
      Becomes s t ({ s with frameErrors := t.frameErrors, incompleteFrames := t.incompleteFrames,
                            unknownLeads := t.unknownLeads }.requestOf t)

/-- GET_TIME with an empty parameter field answers the counter, TIME_UNSET and the tick period; with any other
BAD_PARAM. It changes nothing but the arm latch, and FAULTED refuses it at intake (R166). -/
def Obligations.GetTimeReadsCounter : Prop :=
  (∀ (s : State) (tag : Byte) (params : List Byte), params.length ≤ 520 → Accepts s tag →
    ∃ t, exec (.getTime tag params) s = .next t ∧
      Answered s t .getTime tag params false (if params = [] then .ok else .badParam)
        (if params = [] then be32 s.tick.toNat ++ [if s.timeUnset then 0x01 else 0x00] ++ be16 s.tickPeriod else []) ∧
      Becomes s t (s.requestOf t)) ∧
    ∀ (s : State) (tag : Byte) (params : List Byte), params.length ≤ 520 → LinkIdle s → s.dev = .faulted →
      ∃ t, exec (.getTime tag params) s = .next t ∧
        t.sdo = .drive [0xFF, 0x07, byteOf (freeCount s.contexts)] 0xFF ∧ t.resetArm = false ∧ t.csLow = true ∧
        t.txn = .ended ∧ Becomes s t (s.linkOf t)

/-- SET_TIME loads the counter and clears TIME_UNSET unless the guard is engaged, and answers both as they were
(R132, R165). -/
def Obligations.SetTimeLoadsCounter : Prop :=
  ∀ (s : State) (tag a b c d : Byte) (env : Env), Accepts s tag →
    ∃ t, exec (.setTime tag [a, b, c, d] env) s = .next t ∧
      (s.committed.guardEngaged env.guardHigh = false → t.tick = a ++ b ++ c ++ d ∧ t.timeUnset = false ∧
        Answered s t .setTime tag [a, b, c, d] false .ok
          (be32 s.tick.toNat ++ [if s.timeUnset then 0x01 else 0x00])) ∧
      (s.committed.guardEngaged env.guardHigh = true → t.tick = s.tick ∧ t.timeUnset = s.timeUnset ∧
        Answered s t .setTime tag [a, b, c, d] false .guarded []) ∧
      Becomes s t ({ s with tick := t.tick, timeUnset := t.timeUnset }.requestOf t)

/-- ARM sets the latch to a valid pair, the id read as 00h but for DELETE_STREAM; a refused ARM leaves the latch
exactly as it was (R140). FAULTED takes it in too (R28). -/
def Obligations.ArmSetsLatch : Prop :=
  ∀ (s : State) (tag : Byte) (params : List Byte), params.length ≤ 520 → AcceptsAlsoFaulted s tag →
    ∃ t i, exec (.arm tag params) s = .next t ∧ AcceptedOnLink s t ∧ LowestFree s i ∧
      t.nextAcceptance = s.nextAcceptance + 1 ∧ t.nextCompletion = s.nextCompletion + 1 ∧
      (if ∃ k id, params = [k, id] ∧ (k = 0x33 ∧ id.toNat < 16 ∨ k ∈ [0x37, 0x3A, 0x3B, 0x3C])
        then ∃ p k id, params = [k, id] ∧ t.armLatch = some p ∧ p.kind.code = k ∧
          p.id = (if k = 0x33 then id else 0x00) ∧
          t.contexts = s.contexts.set i (.held ⟨tag, .arm, params, false, s.nextAcceptance⟩
            (.done s.nextCompletion .ok [k, p.id]))
        else t.armLatch = s.armLatch ∧
          t.contexts = s.contexts.set i (.held ⟨tag, .arm, params, false, s.nextAcceptance⟩
            (.done s.nextCompletion .badParam []))) ∧
      Becomes s t (s.requestOf t)

/-- ABORT: with flag 01h every QUEUED request, with flag 00h the QUEUED request under the tag named, goes to DONE with
status ABORTED and an empty payload; whatever else is QUEUED, and whatever is EXECUTING, DONE or FREE, stays; those
aborted are numbered in acceptance order ahead of the ABORT, and the reply counts them (R43, R44). FAULTED takes it in too,
where it may end a queued FORMAT (R28, R44). -/
def Obligations.AbortEndsQueuedRequests : Prop :=
  ∀ (s : State) (tag flag x : Byte), AcceptsAlsoFaulted s tag → s.contexts.length = 8 → flag.toNat ≤ 1 →
    let hit : Context → Bool := fun c => c.isQueued && (flag == 0x01 || c.hasTag x)
    let n := s.contexts.countP hit
    ∃ t i, exec (.abort tag [flag, x]) s = .next t ∧ AcceptedOnLink s t ∧ LowestFree s i ∧ t.armLatch = none ∧
      t.nextAcceptance = s.nextAcceptance + 1 ∧ t.nextCompletion = s.nextCompletion + n + 1 ∧
      t.contexts[i]? = some (.held ⟨tag, .abort, [flag, x], false, s.nextAcceptance⟩
        (.done (s.nextCompletion + n) .ok [byteOf n])) ∧
      (∀ (j : Nat) (r : Request), s.contexts[j]? = some (.held r .queued) → hit (.held r .queued) = true →
        ∃ m, t.contexts[j]? = some (.held r (.done m .aborted [])) ∧ s.nextCompletion ≤ m ∧ m < s.nextCompletion + n) ∧
      (∀ (j k : Nat) (r q : Request) (m p : Nat), s.contexts[j]? = some (.held r .queued) → s.contexts[k]? = some (.held q .queued) →
        t.contexts[j]? = some (.held r (.done m .aborted [])) → t.contexts[k]? = some (.held q (.done p .aborted [])) →
        r.acceptance < q.acceptance → m < p) ∧
      (∀ (j : Nat) (c : Context), s.contexts[j]? = some c → j ≠ i → hit c = false → t.contexts[j]? = some c) ∧
      Becomes s t (s.requestOf t)

/-- An immediate request refused BAD_PARAM answers with an empty payload and changes no state (R35): every kind but ARM, for
every length that is none of its forms and every value out of its range, in RUNNING and, for the kinds it takes in, in
FAULTED (R20, R28, R43, R67, R86, R127, R153, R157, R165, R166, R179, R182, R183). -/
def Obligations.ImmediateBadParamChangesNothing : Prop :=
  ∀ (s : State) (tag : Byte) (params : List Byte) (env : Env) (k : Kind), k.isMedia = false → k ≠ .arm →
    (Accepts s tag ∨ AcceptsAlsoFaulted s tag ∧
      k ∈ [.getIdentity, .readEvents, .releaseEvents, .clearAlarms, .linkStats, .abort]) →
    params.length ≤ 520 → Malformed s.committed.tables k params →
    ∃ t, exec (k.command tag params env) s = .next t ∧ Answered s t k tag params false .badParam [] ∧
      Becomes s t (s.requestOf t)

/-! ### Media requests that need no array work -/

/-- READ: NOT_RETAINED, NOT_YET, the intact record's fields, or DAMAGED_DATA with the slot, or with the number alone when
no slot is found; nothing but the reply changes (R103 to R106). The slot of a number: in the segment of the list whose
range holds it, where its commit mark is counted to, up to the write position in the newest segment (R71, R104). A record
is intact when its length fits, its check matches and its number and option flags are the stream's (R106). -/
def Obligations.ReadReturnsRecord : Prop :=
  (∀ (s : State) (tag id : Byte) (n : Word) (env : Env), Accepts s tag → EngineIdle s → id.toNat < 16 →
    let st := s.committed.tables.stream id.toNat
    let ps := id :: be32 n.toNat
    ∃ t, exec (.read tag ps env) s = .next t ∧
      (st.state = .absent → CompletedAtOnce s t .read tag ps false .streamAbsent [] s.committed []) ∧
      (st.state ≠ .absent → n.toNat < st.oldest →
        CompletedAtOnce s t .read tag ps false .notRetained (be32 st.oldest ++ be32 st.next) s.committed []) ∧
      (st.state ≠ .absent → st.oldest ≤ n.toNat → st.next ≤ n.toNat →
        CompletedAtOnce s t .read tag ps false .notYet (be32 st.oldest ++ be32 st.next) s.committed []) ∧
      (st.state ≠ .absent → st.oldest ≤ n.toNat → n.toNat < st.next →
        (∀ seg i, st.slotOf s.flash n.toNat = some (seg, i) →
          let slot := readRange s.flash (slotBase seg st.slotSize i) st.slotSize
          CompletedAtOnce s t .read tag ps false
            (if recordIntact st slot n.toNat then .ok else .damagedData)
            (if recordIntact st slot n.toNat then slot.take 4 ++ [slot.getD 6 0] ++ (slot.drop 4).take 2 ++
                (slot.drop 8).take (st.optionBytes + ofBe ((slot.drop 4).take 2))
              else be32 n.toNat ++ slot) s.committed []) ∧
        (st.slotOf s.flash n.toNat = none →
          CompletedAtOnce s t .read tag ps false .damagedData (be32 n.toNat) s.committed []))) ∧
  (∀ (st : Machine.Stream) (m : List Host.Cell) (n seg i : Nat), Memory.wf m = true →
    st.slotSize ∈ [64, 128, 256, 512] →
    (st.slotOf m n = some (seg, i) ↔
      ∃ (j : Nat) (l : SegLink), st.segs[j]? = some l ∧ l.seg = seg ∧ l.firstSeq ≤ n ∧
        (∀ (k : Nat) (x : SegLink), j < k → st.segs[k]? = some x → n < x.firstSeq) ∧
        let marked := fun x => readByte m (seg * 32768 + 512 + x * st.slotSize + 7) == 0x5A
        i < 63 * (512 / st.slotSize) ∧ (st.segs.getLast? = some l → i < st.writePos) ∧ marked i = true ∧
          (List.range i).countP marked = n - l.firstSeq)) ∧
  ∀ (st : Machine.Stream) (slot : List Byte) (n : Nat), st.slotSize ∈ [64, 128, 256, 512] → slot.length = st.slotSize →
    n < 2 ^ 32 →
    (recordIntact st slot n = true ↔
      slot.take 4 = be32 n ∧ (slot.getD 6 0).getLsbD 0 = st.timeOption ∧ (slot.getD 6 0).getLsbD 1 = st.tempOption ∧
        ∃ len, (slot.drop 4).take 2 = be16 len ∧
          len + 10 + (if st.timeOption then 4 else 0) + (if st.tempOption then 2 else 0) ≤ st.slotSize ∧
          checkBytes (slot.take 7 ++ (slot.drop 8).take
            ((if st.timeOption then 4 else 0) + (if st.tempOption then 2 else 0) + len)) = slot.drop (st.slotSize - 2))

/-- READ_NEXT reads at the cursor, skipping what is no longer retained, and leaves the cursor one past the record
it returned, or answers NOT_YET and leaves it; SEEK sets the cursor to the number asked for, clamped between oldest
and next (R107, R108, R109). What it reads is what READ gives: the record's fields if it is intact, its number and slot if
it is damaged, its number alone if no slot is found (R105, R106). -/
def Obligations.CursorRequestsMoveCursor : Prop :=
  (∀ (s : State) (tag id : Byte) (env : Env), Accepts s tag → EngineIdle s → id.toNat < 16 →
     let tb := s.committed.tables
     let st := tb.stream id.toNat
     let n := max st.oldest st.cursor
     let r := st.readRecord s.flash n
     (st.slotOf s.flash n = none → r = (false, be32 n)) ∧
     (∀ seg i, st.slotOf s.flash n = some (seg, i) →
       let slot := readRange s.flash (seg * 32768 + 512 + i * st.slotSize) st.slotSize
       (recordIntact st slot n = true → r = (true, slot.take 4 ++ [slot.getD 6 0] ++ (slot.drop 4).take 2 ++
         (slot.drop 8).take ((if st.timeOption then 4 else 0) + (if st.tempOption then 2 else 0) +
           ofBe ((slot.drop 4).take 2)))) ∧
       (recordIntact st slot n = false → r = (false, be32 n ++ slot))) ∧
     ∃ t, exec (.readNext tag [id] env) s = .next t ∧
       (st.state = .absent → CompletedAtOnce s t .readNext tag [id] false .streamAbsent [] s.committed []) ∧
       (st.state ≠ .absent → (st.oldest = st.next ∨ st.cursor = st.next) →
         CompletedAtOnce s t .readNext tag [id] false .notYet (be32 st.cursor) s.committed []) ∧
       (st.state ≠ .absent → st.oldest ≠ st.next → st.cursor ≠ st.next →
         CompletedAtOnce s t .readNext tag [id] false
           (if r.1 = false then .damagedData else if st.cursor < st.oldest then .cursorSkipped else .ok)
           (be32 (st.oldest - st.cursor) ++ r.2)
           { s.committed with tables := tb.setStream id.toNat { st with cursor := n + 1 } } [])) ∧
  (∀ (s : State) (tag id : Byte) (n : Word) (env : Env), Accepts s tag → EngineIdle s → id.toNat < 16 →
     let tb := s.committed.tables
     let st := tb.stream id.toNat
     let ps := id :: be32 n.toNat
     let c := max st.oldest (min st.next n.toNat)
     ∃ t, exec (.seek tag ps env) s = .next t ∧
       (st.state = .absent → CompletedAtOnce s t .seek tag ps false .streamAbsent [] s.committed []) ∧
       (st.state ≠ .absent → CompletedAtOnce s t .seek tag ps false (if c = n.toNat then .ok else .clamped) (be32 c)
         { s.committed with tables := tb.setStream id.toNat { st with cursor := c } } []))

/-- SAMPLE_TEMPERATURE with the internal source: one attempt, due or not, which always succeeds, the profile being selected
if the value changed (R114, R118, R119, R124, R128); with the external source it begins an attempt, and with HOST it reports
the sample (R114, R128). SET_TEMPERATURE under the HOST source makes the value the sample and selects the profile; under any
other it is refused WRONG_SOURCE and changes nothing (R129). The value of an internal attempt is the die's temperature to
the nearest whole degree, in quarter degrees and clamped (R118); halfway between two degrees either of them (log 16). A
modifying request of any kind that reaches step 6 with a due sample refreshes it there: an external attempt begins; an
internal one is made at once, and then TEMP_INHIBIT by the profile newly selected, the refresh standing, or the work it
would do with that sample, the refresh's events before its own (R39, R40, R114, R125, R181). A sample is due while the
configured source is EXTERNAL or INTERNAL and its value is absent, its due mark is set or its age exceeds the refresh
interval, stale or not; under HOST never (R113). That what waits in a request comes before the POOL_LOW of its completion is
the model's choice (log 35). -/
def Obligations.SampleRequestsRenewSample : Prop :=
  (∀ (s : State) (tag : Byte) (env : Env), Accepts s tag → EngineIdle s → s.committed.activeSource = .internal →
     let v := dieValue env.die
     let old := s.committed
     let index := if old.sample.value = some v then old.activeProfile else selectIndex old.profiles (some v)
     let c : Committed := { old with
       sample := ⟨some v, some .internal, 0, false, false, 0, old.sample.fallback⟩
       activeProfile := index }
     ∃ t, exec (.sampleTemperature tag [] env) s = .next t ∧
       CompletedAtOnce s t .sampleTemperature tag [] false .ok
         ([0x01, 0x00] ++ be16 v.toNat ++ [0x01] ++ be32 0 ++
           [0x00, 0x00, if old.sample.fallback then 0x01 else 0x00, byteOf index, if c.permits then 0x01 else 0x00])
         c
         (if index = old.activeProfile then []
           else [⟨.profileChanged, ⟨s.tick, s.timeUnset⟩, byteOf (old.activeProfile * 16 + index),
             BitVec.ofNat 32 v.toNat⟩])) ∧
  (∀ (s : State) (tag h l : Byte) (env : Env), Accepts s tag → EngineIdle s →
     -220 ≤ (h ++ l).toInt → (h ++ l).toInt ≤ 600 →
     let v : Half := h ++ l
     let old := s.committed
     let index := selectIndex old.profiles (some v)
     let c : Committed := { old with
       sample := ⟨some v, some .host, 0, false, false, 0, old.sample.fallback⟩
       activeProfile := index }
     ∃ t, exec (.setTemperature tag [h, l] env) s = .next t ∧
       (old.tables.settings.source ≠ .host ∨ old.sample.fallback = true →
         CompletedAtOnce s t .setTemperature tag [h, l] false .wrongSource [] old []) ∧
       (old.tables.settings.source = .host → old.sample.fallback = false →
         CompletedAtOnce s t .setTemperature tag [h, l] false .ok
           [byteOf old.activeProfile, byteOf index, if c.permits then 0x01 else 0x00] c
           (if index = old.activeProfile then []
             else [⟨.profileChanged, ⟨s.tick, s.timeUnset⟩, byteOf (old.activeProfile * 16 + index),
               BitVec.ofNat 32 v.toNat⟩]))) ∧
  (∀ (s : State) (tag : Byte) (env : Env), Accepts s tag → EngineIdle s →
     ∃ t, exec (.sampleTemperature tag [] env) s = .next t ∧
       (s.committed.activeSource = .external → Started s t .sampleTemperature tag [] false .sensor .sampling) ∧
       (s.committed.activeSource = .host → CompletedAtOnce s t .sampleTemperature tag [] false .ok
         (samplePayload s.committed 0x02 0x00) s.committed [])) ∧
  (∀ (s : State) (tag : Byte) (env : Env) (i : Instr) (kind : Kind) (ps : List Byte) (armed : Bool), Accepts s tag →
     EngineIdle s → s.committed.cat.readOnly = false → s.committed.due = true → ReachesStepSix s tag env i kind ps armed →
     let old := s.committed
     let v := dieValue env.die
     let c := old.sampled v .internal
     let evs := changeOf old ⟨s.tick, s.timeUnset⟩ c.activeProfile v
     ∃ t, exec i s = .next t ∧
       (old.activeSource = .external → Started s t kind tag ps armed .sensor .refresh) ∧
       (old.activeSource = .internal →
         (c.permits = false → CompletedAtOnce s t kind tag ps armed .tempInhibit [] c evs) ∧
         (c.permits = true →
           (∀ u j, exec i { s with committed := c } = .next u → u.job = some j →
             t = { u with
               committed := old
               job := some ⟨{ j.task with events := evs ++ j.task.events }, j.op, j.stage⟩ }) ∧
           ∀ u, exec i ({ s with committed := c }.recordAll evs) = .next u → u.job = none →
             t = { u with reconsider := u.reconsider || (s.reclaimPaused &&
               (c.activeProfile != old.activeProfile || (c.permits && !old.permits))) }))) ∧
  (∀ c : Committed, c.due = true ↔
    (c.tables.settings.sensorSource = 0x0000 ∨ c.tables.settings.sensorSource = 0x0001) ∧
      (c.sample.value = none ∨ c.sample.dueMark = true ∨ c.tables.settings.refreshInterval.toNat < c.sample.age)) ∧
  (∀ milli d : Int, -500 < milli - 1000 * d → milli - 1000 * d < 500 →
    dieValue milli = BitVec.ofInt 16 (max (-220) (min 600 (4 * d)))) ∧
  ∀ d : Int, dieValue (1000 * d + 500) = BitVec.ofInt 16 (max (-220) (min 600 (4 * d))) ∨
    dieValue (1000 * d + 500) = BitVec.ofInt 16 (max (-220) (min 600 (4 * (d + 1))))

/-- Selection: the highest of entries 1 to 7 that is used and whose range from low, included, to high, excluded,
holds the value; entry 0 when none does or there is no value (R124). -/
def Obligations.SelectionTakesHighestMatch : Prop :=
  ∀ (ps : List Profile) (v : Half), selectIndex ps none = 0 ∧
    let holds := fun i => 1 ≤ i ∧ i ≤ 7 ∧ ∃ p, ps[i]? = some p ∧ p.used = true ∧ p.low.toInt ≤ v.toInt ∧ v.toInt < p.high.toInt
    (holds (selectIndex ps (some v)) ∨ selectIndex ps (some v) = 0) ∧ ∀ i, holds i → i ≤ selectIndex ps (some v)

/-- WRITE_PROFILE replaces one entry and selects again; entry 0 stays used (R122, R124, R126). Two clauses of its completion
are the model's choice: PROFILE_CHANGED stands ahead of the completion's POOL_LOW (log 35), and a paused reclaim is noted for
reconsideration when the index changes and also when the same index has come to permit writes (log 14). -/
def Obligations.WriteProfileReplacesEntry : Prop :=
  ∀ (s : State) (tag i u lh ll hh hl p pc ec : Byte) (env : Env), Accepts s tag → EngineIdle s →
    s.committed.guardEngaged env.guardHigh = false → i.toNat ≤ 7 → u.toNat ≤ 1 → p.toNat ≤ 1 → pc.toNat ≤ 3 →
    ec.toNat ≤ 3 → (i = 0x00 ∨ u = 0x00 ∨ (lh ++ ll).toInt < (hh ++ hl).toInt) →
    let old := s.committed
    let ps := old.profiles.set i.toNat
      ⟨decide (u = 0x01 ∨ i = 0x00), lh ++ ll, hh ++ hl, decide (p = 0x01), pc.toNat, ec.toNat⟩
    let index := selectIndex ps old.sample.value
    ∃ t, exec (.writeProfile tag [i, u, lh, ll, hh, hl, p, pc, ec] env) s = .next t ∧
      CompletedAtOnce s t .writeProfile tag [i, u, lh, ll, hh, hl, p, pc, ec] false .ok
        [byteOf old.activeProfile, byteOf index] { old with profiles := ps, activeProfile := index }
        (if index = old.activeProfile then []
          else [⟨.profileChanged, ⟨s.tick, s.timeUnset⟩, byteOf (old.activeProfile * 16 + index),
            BitVec.ofNat 32 (old.sample.value.getD 0x8000).toNat⟩])

/-! ### Refusals before any work -/

/-- Refusals before any work, each changing nothing but the link, the Request Manager and the pool comparison: BAD_PARAM of
every media kind, for every length that is none of its forms and every value out of its range, an APPEND too long for its
stream and a TRIM above next among them (R39, R92, R110); READ_ONLY at step 5 and TEMP_INHIBIT at step 6, the sample not
being due, of every modifying kind (R39, R125); GUARDED for the guarded requests while the guard is engaged, SET_OPTION's of
the tick period and of the guard mode among them (R133, R155); NOT_ARMED for an armed request without its arming, whatever the
guard (R141, R142); STREAM_ABSENT, STREAM_EXISTS, STREAM_SEALED, HELD, NO_BANK and FUSE_SPENT (R77, R79, R81, R83, R93, R110,
R137, R138, R144, R149, R152). A SET_HOLD of a hold that is on and a CLEAR_HOLD of one that is off complete OK at once and
change nothing either (R137, R138). -/
def Obligations.RefusalsChangeNothing : Prop :=
  (∀ (s : State) (tag : Byte) (params : List Byte) (env : Env) (k : Kind) (armed : Bool), k.isMedia = true →
     Accepts s tag → EngineIdle s → params.length ≤ 520 → Malformed s.committed.tables k params →
     MarkedArmed s k params armed →
     ∃ t, exec (k.command tag params env) s = .next t ∧ Refused s t k tag params armed .badParam) ∧
  (∀ (s : State) (tag : Byte) (env : Env) (c : Instr) (k : Kind) (params : List Byte) (armed : Bool), Accepts s tag →
     EngineIdle s → ReachesStepSix s tag env c k params armed →
     (s.committed.cat.readOnly = true → ∃ t, exec c s = .next t ∧ Refused s t k tag params armed .readOnly) ∧
     (s.committed.cat.readOnly = false → s.committed.due = false → s.committed.permits = false →
       ∃ t, exec c s = .next t ∧ Refused s t k tag params armed .tempInhibit)) ∧
  (∀ (s : State) (tag id : Byte) (env : Env), Accepts s tag → EngineIdle s →
     s.committed.guardEngaged env.guardHigh = true → id.toNat < 16 →
     let st := s.committed.tables.stream id.toNat
     (∀ n : Word, (st.state = .absent ∨ n.toNat ≤ st.next) → ∃ t, exec (.trim tag (id :: be32 n.toNat) env) s = .next t ∧
       Refused s t .trim tag (id :: be32 n.toNat) false .guarded) ∧
     (s.armLatch = some ⟨.deleteStream, id⟩ → ∃ t, exec (.deleteStream tag [id] env) s = .next t ∧
       Refused s t .deleteStream tag [id] true .guarded) ∧
     (s.armLatch = some ⟨.format, 0x00⟩ → ∃ t, exec (.format tag [] env) s = .next t ∧
       Refused s t .format tag [] true .guarded) ∧
     (∃ t, exec (.clearHold tag [id] env) s = .next t ∧ Refused s t .clearHold tag [id] false .guarded) ∧
     (∀ ps : List Byte, ¬ Malformed s.committed.tables .writeProfile ps → ∃ t, exec (.writeProfile tag ps env) s = .next t ∧
       Refused s t .writeProfile tag ps false .guarded) ∧
     (s.armLatch = some ⟨.commitProfiles, 0x00⟩ → ∃ t, exec (.commitProfiles tag [] env) s = .next t ∧
       Refused s t .commitProfiles tag [] true .guarded) ∧
     (∀ v : Half, v ∈ [1, 10, 100, 1000] → ∃ t, exec (.setOption tag (0x07 :: be16 v.toNat) env) s = .next t ∧
       Refused s t .setOption tag (0x07 :: be16 v.toNat) false .guarded) ∧
     ∀ v : Half, v.toNat ≤ 1 →
       (v = 0x0000 ∨ s.committed.fuse.guardA = .blown ∨ s.committed.fuse.guardB = .blown) →
       ∃ t, exec (.setOption tag (0x01 :: be16 v.toNat) env) s = .next t ∧
         Refused s t .setOption tag (0x01 :: be16 v.toNat) false .guarded) ∧
  (∀ (s : State) (tag id : Byte) (label : List Byte) (env : Env), Accepts s tag → EngineIdle s → id.toNat < 16 →
     label.length = 16 →
     (s.armLatch ≠ some ⟨.deleteStream, id⟩ → ∃ t, exec (.deleteStream tag [id] env) s = .next t ∧
       Refused s t .deleteStream tag [id] false .notArmed) ∧
     ((∀ x, s.armLatch ≠ some ⟨.format, x⟩) → ∃ t, exec (.format tag [] env) s = .next t ∧
       Refused s t .format tag [] false .notArmed) ∧
     ((∀ x, s.armLatch ≠ some ⟨.commitProfiles, x⟩) → ∃ t, exec (.commitProfiles tag [] env) s = .next t ∧
       Refused s t .commitProfiles tag [] false .notArmed) ∧
     ((∀ x, s.armLatch ≠ some ⟨.setOwnerLabel, x⟩) → ∃ t, exec (.setOwnerLabel tag label env) s = .next t ∧
       Refused s t .setOwnerLabel tag label false .notArmed) ∧
     ((∀ x, s.armLatch ≠ some ⟨.fixGuard, x⟩) → ∃ t, exec (.fixGuard tag [] env) s = .next t ∧
       Refused s t .fixGuard tag [] false .notArmed)) ∧
  (∀ (s : State) (tag id : Byte) (env : Env), Accepts s tag → EngineIdle s → id.toNat < 16 →
     let st := s.committed.tables.stream id.toNat
     (∀ (marker : Byte) (payload : List Byte), ¬ Malformed s.committed.tables .append (id :: marker :: payload) →
       (st.state = .absent → ∃ t, exec (.append tag (id :: marker :: payload) env) s = .next t ∧
         Refused s t .append tag (id :: marker :: payload) false .streamAbsent) ∧
       (st.state = .sealed → ∃ t, exec (.append tag (id :: marker :: payload) env) s = .next t ∧
         Refused s t .append tag (id :: marker :: payload) false .streamSealed)) ∧
     (st.state = .absent →
       (∃ t, exec (.sealStream tag [id] env) s = .next t ∧ Refused s t .sealStream tag [id] false .streamAbsent) ∧
       ∃ t, exec (.setHold tag [id] env) s = .next t ∧ Refused s t .setHold tag [id] false .streamAbsent) ∧
     (st.state = .sealed → ∃ t, exec (.sealStream tag [id] env) s = .next t ∧
       Refused s t .sealStream tag [id] false .streamSealed) ∧
     (st.state ≠ .absent → ∀ fields : List Byte, ¬ Malformed s.committed.tables .createStream (id :: fields) →
       ∃ t, exec (.createStream tag (id :: fields) env) s = .next t ∧
         Refused s t .createStream tag (id :: fields) false .streamExists) ∧
     (st.state ≠ .absent → st.hold = true → ∃ t, exec (.setHold tag [id] env) s = .next t ∧
       CompletedAtOnce s t .setHold tag [id] false .ok [id, 0x01] s.committed []) ∧
     (∀ label : List Byte, label.length = 16 → s.armLatch = some ⟨.setOwnerLabel, 0x00⟩ →
       s.committed.fuse.labelState ≠ .absent → ∃ t, exec (.setOwnerLabel tag label env) s = .next t ∧
         Refused s t .setOwnerLabel tag label true .fuseSpent) ∧
     (s.armLatch = some ⟨.fixGuard, 0x00⟩ → (s.committed.fuse.guardA = .blown ∨ s.committed.fuse.guardB = .blown) →
       ∃ t, exec (.fixGuard tag [] env) s = .next t ∧ Refused s t .fixGuard tag [] true .fuseSpent)) ∧
  ∀ (s : State) (tag id : Byte) (env : Env), Accepts s tag → EngineIdle s → id.toNat < 16 →
     s.committed.guardEngaged env.guardHigh = false →
     let st := s.committed.tables.stream id.toNat
     (st.state = .absent →
       (∀ n : Word, ∃ t, exec (.trim tag (id :: be32 n.toNat) env) s = .next t ∧
         Refused s t .trim tag (id :: be32 n.toNat) false .streamAbsent) ∧
       (∃ t, exec (.clearHold tag [id] env) s = .next t ∧ Refused s t .clearHold tag [id] false .streamAbsent) ∧
       (s.armLatch = some ⟨.deleteStream, id⟩ → ∃ t, exec (.deleteStream tag [id] env) s = .next t ∧
         Refused s t .deleteStream tag [id] true .streamAbsent)) ∧
     (st.state ≠ .absent → st.hold = true →
       (∀ n : Word, n.toNat ≤ st.next → ∃ t, exec (.trim tag (id :: be32 n.toNat) env) s = .next t ∧
         Refused s t .trim tag (id :: be32 n.toNat) false .held) ∧
       (s.armLatch = some ⟨.deleteStream, id⟩ → ∃ t, exec (.deleteStream tag [id] env) s = .next t ∧
         Refused s t .deleteStream tag [id] true .held)) ∧
     (st.state ≠ .absent → st.hold = false → ∃ t, exec (.clearHold tag [id] env) s = .next t ∧
       CompletedAtOnce s t .clearHold tag [id] false .ok [id, 0x00] s.committed []) ∧
     (s.armLatch = some ⟨.format, 0x00⟩ → (∃ x ∈ s.committed.tables.streams, x.hold = true) →
       ∃ t, exec (.format tag [] env) s = .next t ∧ Refused s t .format tag [] true .held) ∧
     (s.armLatch = some ⟨.commitProfiles, 0x00⟩ → s.committed.fuse.bank = .bUsed →
       ∃ t, exec (.commitProfiles tag [] env) s = .next t ∧ Refused s t .commitProfiles tag [] true .noBank)

/-! ### Media requests that begin array or fuse work -/

/-- An APPEND to an open newest segment begins the body program of its record at the write position: everything of
the slot but the commit mark and the padding, under the active profile's timing; nothing is committed yet (R36,
R72, R88, R89, R90, R92, R93). Without an open newest segment the stream needs a new one: below its quota by allocation,
at its quota by the eviction of its oldest segment or STREAM_FULL (R94, R95, R101); allocation takes the least worn FREE
segment and programs its descriptor, or erases the head of the dirty list, or evicts, or answers POOL_EMPTY with its event
(R52, R53, R56, R96); an eviction's entry that finds no room brings a compaction or the read-only condition first (R60,
R61, R63). At the last sequence number it answers SEQ_EXHAUSTED (R93). The offsets of the descriptor's fields (log 41),
the link number past FFFFFFFFh (log 52), the place of POOL_LOW behind the request's own events (log 35), an image's page programs and what it records of segments
that the mount made DIRTY (logs 11 and 50) and the generation past FFFFFFFFh (log 40) are the model's choices. -/
def Obligations.AppendBeginsBodyProgram : Prop :=
  ∀ (s : State) (tag id marker : Byte) (payload : List Byte) (env : Env), Accepts s tag → EngineIdle s →
    Writable s.committed → id.toNat < 16 → marker.toNat ≤ 1 →
    let c := s.committed
    let st := c.tables.stream id.toNat
    st.state = .opened → payload.length ≤ st.slotSize - 10 - st.optionBytes → payload.length ≤ 502 →
    let bit : Bool → Byte → Byte := fun b v => if b then v else 0x00
    let flags : Byte := bit st.timeOption 0x01 ||| bit st.tempOption 0x02 ||| bit s.timeUnset 0x04 |||
      bit (c.sample.value.isNone || c.sample.stale) 0x08 ||| (byteOf (c.activeProfile % 8) <<< 4) |||
      bit (decide (marker = 0x01)) 0x80
    let temperature := c.sample.value.getD 0x8000
    let head := be32 st.next ++ be16 payload.length ++ [flags]
    let tail := (if st.timeOption then be32 s.tick.toNat else []) ++
      (if st.tempOption then be16 temperature.toNat else []) ++ payload
    let ps := id :: marker :: payload
    let a : AppendData := ⟨id.toNat, payload, ⟨s.tick, s.timeUnset⟩, temperature, flags, c.activeProfile, 0, false⟩
    c.activeProfile ≤ 7 →
    ∃ t, exec (.append tag ps env) s = .next t ∧
      (st.next = 0xFFFFFFFF → CompletedAtOnce s t .append tag ps false .seqExhausted [] c []) ∧
      (st.next ≠ 0xFFFFFFFF →
        (∀ l : SegLink, st.segs.getLast? = some l → (c.tables.seg l.seg).suspect = false →
          st.closed = false → st.writePos < 63 * (512 / st.slotSize) →
          let base := l.seg * 32768 + 512 + st.writePos * st.slotSize
          Started s t .append tag ps false
            (.program (cellsAt base head ++ cellsAt (base + 8) tail ++
              cellsAt (base + st.slotSize - 2) (checkBytes (head ++ tail))) (c.profile c.activeProfile).programClass)
            (.body a l.seg st.writePos)) ∧
        ((∀ l : SegLink, st.segs.getLast? = some l →
            (c.tables.seg l.seg).suspect = true ∨ st.closed = true ∨ 63 * (512 / st.slotSize) ≤ st.writePos) →
          NeedsSegment c a ⟨s.tick, s.timeUnset⟩ (Started s t .append tag ps false) (EntryStarts s t .append tag ps false)
            (fun status events => CompletedAtOnce s t .append tag ps false status (unrecorded c a) c events)))

/-- Each structural request that passes its checks begins its one entry and commits nothing yet: with room in the active
catalogue segment the program of the entry at the lowest unused position, without room a compaction to the first usable
target, and with no target the read-only condition: TRIM, CREATE_STREAM, DELETE_STREAM, SEAL_STREAM, SET_HOLD, CLEAR_HOLD,
FORMAT and SET_OPTION of every item and permitted value, the guard engaged or not where it has no say (R36, R39, R60, R61,
R63, R75, R78, R79, R82, R83, R111, R134, R137, R138, R154, R155, R156). A TRIM at or below oldest completes OK and changes
nothing (R111). The segments a TRIM releases are the first of the list, those whose numbers all lie below the new oldest,
the newest only of a SEALED stream (R111). The usable count that ends FORMAT's reply is taken at its completion (R83). A
FORMAT in FAULTED: BAD_PARAM, NOT_ARMED, GUARDED, a due sample refreshed, TEMP_INHIBIT, then the erase of catalogue segment
0 (R39, R84, R85, R125); each verified operation leads to the next, erase, pages 0 to 15 with generation 1 and the image of
the rebuilt tables, mark; then it completes OK in RUNNING, with CATALOGUE_DEGRADED at one usable segment; a target that
fails is unusable, holds no valid image, and the next is tried, up to MEDIA_FAULT with the device FAULTED still (R62, R84,
R85, R174). The model's choices: the tables held in FAULTED (log 24), no pool comparison there (log 30), the image built
from the array as each page is programmed (log 37), the details of that CATALOGUE_DEGRADED (log 38), the refused FORMAT's
refresh standing (log 49), POOL_LOW behind the waiting events (log 35), the fields without meaning of a stream that is
ABSENT or has an empty list (log 46), a stopped mark that is no mark (log 10), an image's page programs and what it records
of segments that the mount made DIRTY (logs 11 and 50), the generation past FFFFFFFFh (log 40). -/
def Obligations.StructuralRequestsProgramOneEntry : Prop :=
  (∀ (s : State) (tag id : Byte) (env : Env), Accepts s tag → EngineIdle s → Writable s.committed → id.toNat < 16 →
    let c := s.committed
    let st := c.tables.stream id.toNat
    let g := c.tables.settings
    let unguarded := c.guardEngaged env.guardHigh = false
    let begins := fun (t : State) (kind : Kind) (ps : List Byte) (armed : Bool) (e : Entry) (after : After) =>
      EntryStarts s t kind tag ps armed e after
    (∀ n : Word, unguarded → st.state ≠ .absent → st.hold = false → st.oldest < n.toNat → n.toNat ≤ st.next →
      let is := releasedBy n.toNat st.next (st.state == .sealed) st.segs
      ∃ t, exec (.trim tag (id :: be32 n.toNat) env) s = .next t ∧
        begins t .trim (id :: be32 n.toNat) false (.trimmed id.toNat n.toNat is)
          (.reply (be32 n.toNat ++ be16 (is.countP (fun i => !(c.tables.seg i).suspect)) ++
            be16 (is.countP (fun i => (c.tables.seg i).suspect))))) ∧
    (∀ (label : List Byte) (start : Word) (sc ret qh ql opt : Byte), (label.length = 0 ∨ label.length = 8) →
      st.state = .absent → sc.toNat ≤ 3 → ret.toNat ≤ 1 → opt.toNat ≤ 3 → (qh ++ ql).toNat ≤ 1020 →
      (ret = 0x00 → 2 ≤ (qh ++ ql).toNat) → 1 ≤ start.toNat → start.toNat ≤ 0xFFFF0000 →
      let ps := [id, sc, ret, qh, ql, opt] ++ be32 start.toNat ++ label
      ∃ t, exec (.createStream tag ps env) s = .next t ∧
        begins t .createStream ps false
          (.created id.toNat
            ⟨.opened, 64 * 2 ^ sc.toNat, if ret = 0x00 then .wrap else .halt, (qh ++ ql).toNat, opt.getLsbD 0, opt.getLsbD 1,
              if label = [] then none else some label, start.toNat, start.toNat, start.toNat, start.toNat, [], 0,
              false, false, start.toNat⟩)
          (.reply (id :: be32 start.toNat))) ∧
    (s.armLatch = some ⟨.deleteStream, id⟩ → unguarded → st.state ≠ .absent → st.hold = false →
      let is := st.segs.map SegLink.seg
      ∃ t, exec (.deleteStream tag [id] env) s = .next t ∧
        begins t .deleteStream [id] true (.deleted id.toNat)
          (.reply (be16 (is.countP (fun i => !(c.tables.seg i).suspect)) ++
            be16 (is.countP (fun i => (c.tables.seg i).suspect))))) ∧
    (st.state = .opened → ∃ t, exec (.sealStream tag [id] env) s = .next t ∧
      begins t .sealStream [id] false (.sealed id.toNat st.next) (.reply (be32 st.next))) ∧
    (st.state ≠ .absent → st.hold = false → ∃ t, exec (.setHold tag [id] env) s = .next t ∧
      begins t .setHold [id] false (.holdSet id.toNat) (.reply [id, 0x00])) ∧
    (unguarded → st.state ≠ .absent → st.hold = true → ∃ t, exec (.clearHold tag [id] env) s = .next t ∧
      begins t .clearHold [id] false (.holdCleared id.toNat) (.reply [id, 0x01])) ∧
    (s.armLatch = some ⟨.format, 0x00⟩ → unguarded → (∀ x ∈ c.tables.streams, x.hold = false) →
      let is := c.tables.streams.flatMap (fun x => x.segs.map SegLink.seg)
      ∃ t, exec (.format tag [] env) s = .next t ∧
        begins t .format [] true .formatted
          (.formatReply ([0x00, byteOf (c.tables.streams.countP (fun x => x.state != .absent))] ++
            be16 (is.countP (fun i => !(c.tables.seg i).suspect)) ++
            be16 (is.countP (fun i => (c.tables.seg i).suspect))))) ∧
    (∀ code v : Half, SettingAllowed code.toNat v.toNat →
      (unguarded ∨ code ≠ 7 ∧ (code = 1 → v = 1 ∧ c.fuse.guardA ≠ .blown ∧ c.fuse.guardB ≠ .blown)) →
      let old := [g.guardMode, g.sensorSource, g.sensorAddress, g.sensorPointer, g.sensorFormat, g.refreshInterval,
        g.tickPeriod, g.alertMask, g.poolLowThreshold].getD (code.toNat - 1) 0
      let ps := byteOf code.toNat :: be16 v.toNat
      ∃ t, exec (.setOption tag ps env) s = .next t ∧
        begins t .setOption ps false (.setting code.toNat v)
          (.option code.toNat ([byteOf code.toNat] ++ be16 old.toNat ++ be16 v.toNat))) ∧
    ∀ n : Word, unguarded → st.state ≠ .absent → st.hold = false → n.toNat ≤ st.oldest → n.toNat ≤ st.next →
      ∃ t, exec (.trim tag (id :: be32 n.toNat) env) s = .next t ∧
        CompletedAtOnce s t .trim tag (id :: be32 n.toNat) false .ok (be32 st.oldest ++ [0x00, 0x00, 0x00, 0x00])
          s.committed []) ∧
  (∀ (k next : Nat) (closed : Bool) (segs : List SegLink), segs.Pairwise (fun l m => l.firstSeq ≤ m.firstSeq) →
    (∀ l ∈ segs, l.firstSeq ≤ next) →
    ∃ n ≤ segs.length, releasedBy k next closed segs = (segs.take n).map SegLink.seg ∧
      (∀ (j : Nat) (m : SegLink), segs[j + 1]? = some m → (j < n ↔ m.firstSeq ≤ k)) ∧
      (segs ≠ [] → (n = segs.length ↔ closed = true ∧ next ≤ k))) ∧
  (∀ (s : State) (tag : Byte) (env : Env), AcceptsFaulted s tag → EngineIdle s → s.committed.cat.readOnly = false →
    (∀ x ∈ s.committed.tables.streams, x.hold = false) →
    let old := s.committed
    let v := dieValue env.die
    let c := old.sampled v .internal
    let evs := changeOf old ⟨s.tick, s.timeUnset⟩ c.activeProfile v
    let erases := fun (t : State) (w : Committed) (events : List Raised) =>
      StartedWith s t .format tag [] true w events (.catErase 0 (w.profile w.activeProfile).eraseClass)
        (.format [0, 1, 2, 3] [] .erasing)
    (∀ (ps : List Byte) (armed : Bool), ps ≠ [] → ps.length ≤ 520 → MarkedArmed s .format ps armed →
      ∃ t, exec (.format tag ps env) s = .next t ∧ RefusedFaulted s t tag ps armed .badParam old []) ∧
    ∃ t, exec (.format tag [] env) s = .next t ∧
      ((∀ x, s.armLatch ≠ some ⟨.format, x⟩) → RefusedFaulted s t tag [] false .notArmed old []) ∧
      (s.armLatch = some ⟨.format, 0x00⟩ → old.guardEngaged env.guardHigh = true →
        RefusedFaulted s t tag [] true .guarded old []) ∧
      (s.armLatch = some ⟨.format, 0x00⟩ → old.guardEngaged env.guardHigh = false →
        (old.due = false → old.permits = false → RefusedFaulted s t tag [] true .tempInhibit old []) ∧
        (old.due = false → old.permits = true → erases t old []) ∧
        (old.due = true → old.activeSource = .internal →
          (c.permits = false → RefusedFaulted s t tag [] true .tempInhibit c evs) ∧
          (c.permits = true → erases t c evs)))) ∧
  ∀ (s : State) (i : Nat) (r : Request) (task : Machine.Task) (op : Operation) (k : Nat) (ks bad : List Nat)
      (step : TargetStep) (rb : ReadBack) (trip : Bool), s.dev = .faulted → task.owner = .request i r →
    s.job = some ⟨task, op, .format (k :: ks) bad step⟩ → step.Operates k op → task.work.cat.active = none →
    ArrayForm s →
    ∃ t, exec (if trip then .arrayWatchdogTrip rb else .arrayOperationComplete rb) s = .next t ∧ OnlyCatalogue s t k ∧
      ∃ tb, RebuiltFrom s.flash bad tb ∧
      let ok := step.Verified t k rb trip
      let w := task.work
      let timing := (w.profile w.activeProfile).programClass
      let page := fun n => GoesOn s t task (.catPage k n 1 (imageOf tb) timing) (.format (k :: ks) bad (.page n))
      let usable := tb.usable.countP (· == true)
      (ok → step = .erasing → page 0) ∧
      (ok → ∀ n, step = .page n → (n < 15 → page (n + 1)) ∧
        (15 ≤ n → GoesOn s t task (.catMark k timing) (.format (k :: ks) bad .marking))) ∧
      (ok → step = .marking → Completes { s with dev := .running, faultedProfile := none } t i r .ok
        ([0x01, 0x00] ++ be16 tb.dirty.length ++ [0x00, 0x00] ++ [byteOf usable])
        { w with tables := tb, cat := ⟨some k, 0, 1, false⟩ }
        (task.events ++ if usable = 1 then
          [⟨.catalogueDegraded, ⟨s.tick, s.timeUnset⟩, 0x01, BitVec.ofNat 32 (bad.getLastD 0)⟩] else [])
        (task.alarms ||| if usable = 1 then 0x10 else 0)) ∧
      (¬ ok → ∀ j js, ks = j :: js → GoesOn s t (task.carrying w [] 0x01)
        (.catErase j (w.profile w.activeProfile).eraseClass) (.format (j :: js) (bad ++ [k]) .erasing)) ∧
      (¬ ok → ks = [] → CompletesFaulted s t i r .mediaFault [] w task.events (task.alarms ||| 0x01)) ∧
      (¬ ok → (catSegAt s.catSegs k).mark = false ∨ step = .erasing ∧ (catSegAt s.catSegs k).valid = false →
        (catSegAt t.catSegs k).valid = false)

/-- The fuse requests that pass their checks begin with the program of a marker or of an attempt cell and commit
nothing yet: COMMIT_PROFILES, SET_OWNER_LABEL and FIX_GUARD (R36, R144, R149, R150, R152). -/
def Obligations.FuseRequestsProgramMarkerFirst : Prop :=
  ∀ (s : State) (tag : Byte) (label : List Byte) (env : Env), Accepts s tag → EngineIdle s → Writable s.committed →
    let f := s.committed.fuse
    (s.armLatch = some ⟨.commitProfiles, 0x00⟩ → s.committed.guardEngaged env.guardHigh = false → f.bank ≠ .bUsed →
      ∃ t, exec (.commitProfiles tag [] env) s = .next t ∧
        Started s t .commitProfiles tag [] true (.fuseCell (if f.bank = .fresh then .markerA else .markerB))
          (.bankMarker (f.bank == .aUsed))) ∧
    (s.armLatch = some ⟨.setOwnerLabel, 0x00⟩ → label.length = 16 → f.labelState = .absent →
      ∃ t, exec (.setOwnerLabel tag label env) s = .next t ∧
        Started s t .setOwnerLabel tag label true (.fuseCell .labelMarker) (.labelMarker label)) ∧
    (s.armLatch = some ⟨.fixGuard, 0x00⟩ → f.guardA ≠ .blown → f.guardB ≠ .blown →
      ¬ (f.guardA = .failed ∧ f.guardB = .failed) →
      ∃ t, exec (.fixGuard tag [] env) s = .next t ∧
        Started s t .fixGuard tag [] true (.fuseCell (if f.guardA = .failed then .attemptB else .attemptA))
          (.guardAttempt (f.guardA == .failed)))

/-! ### Engine, operations, background -/

/-- The engine starts the QUEUED request with the lowest acceptance number: it is EXECUTING or already DONE, every
other context stays as it was, and nothing has been programmed or erased yet (R24, R37). -/
def Obligations.RequestStartTakesOldest : Prop :=
  ∀ (s : State) (env : Env) (i : Nat) (r : Request), s.resetLow = false → s.dev = .running → s.sleepPending = false →
    s.job = none → s.ready = true → (∀ c ∈ s.contexts, c.isExecuting = false) →
    s.contexts[i]? = some (.held r .queued) →
    (∀ (j : Nat) (r' : Request), s.contexts[j]? = some (.held r' .queued) → j ≠ i → r.acceptance < r'.acceptance) →
    ∃ t, exec (.requestStart env) s = .next t ∧
      (t.contexts[i]? = some (.held r .executing) ∧ t.job ≠ none ∧ t.committed = s.committed ∧
          t.nextCompletion = s.nextCompletion ∨
        (∃ st payload, t.contexts[i]? = some (.held r (.done s.nextCompletion st payload))) ∧ t.job = none ∧
          t.nextCompletion = s.nextCompletion + 1) ∧
      (∀ j, j ≠ i → t.contexts[j]? = s.contexts[j]?) ∧ t.contexts.length = s.contexts.length ∧
      t.catSegs = s.catSegs ∧ t.fuses = s.fuses ∧ t.tick = s.tick ∧ t.txn = s.txn ∧ t.sdo = s.sdo ∧
      t.echo = s.echo ∧ t.armLatch = s.armLatch ∧ ∀ a, readByte t.flash a = readByte s.flash a

/-- A program of the array lands in its own bytes and in no other (R47). When a record's mark program verifies, the
APPEND completes OK with the 20 bytes of R100 and the record is committed: next and the write position are one
greater, in one step with every other effect of the request (R36, R41, R90, R100). Every end of a program or entry of an
APPEND: a descriptor links its segment, its link number 1 or one greater than the newest segment's (R52), or retires it with
reason 03h (R53, R57); a body leads to the mark; a failed body or
mark leaves a void and closes the segment, which its entry makes suspect, one second attempt follows, and then MEDIA_FAULT; a failed mark that reads 5Ah is
a record all the same (R48, R99, R101); an entry written leads on to the record, to allocation or to the answer, each
eviction counted and reported (R95, R98, R101). An entry begins at once, or after the compaction it brings (R60, R61,
R63). The offsets of the descriptor's fields (log 41), the link number past FFFFFFFFh (log 52), the place of POOL_LOW behind a request's waiting events (log 35), that
a segment whose suspect entry cannot be written is closed but not suspect (log 42), that a record stands though its segment's suspect entry cannot
be written (log 20), an image's page programs and what it records of segments that the mount made DIRTY (logs 11 and 50)
and the generation past FFFFFFFFh (log 40) are the model's choices. -/
def Obligations.RecordProgramsLandAndCommit : Prop :=
  (∀ n : Word, n ≠ 0xFFFFFFFF → (nextLinkNumber n).toNat = n.toNat + 1) ∧
  (∀ (s : State) (j : Job) (cells : List Host.Cell) (timing : Nat), Memory.wf s.flash = true → s.job = some j →
     j.op = .program cells timing → (cells.map Prod.fst).Nodup →
     ∃ t, exec (.arrayOperationComplete .asIntended) s = .next t ∧
       (∀ c ∈ cells, readByte t.flash c.1 = c.2) ∧
       (∀ a, a ∉ cells.map Prod.fst → readByte t.flash a = readByte s.flash a) ∧ t.catSegs = s.catSegs ∧
       t.fuses = s.fuses) ∧
  (∀ (s : State) (i : Nat) (r : Request) (w : Committed) (a : AppendData) (seg slot timing : Nat),
     s.dev = .running →
     let st := w.tables.stream a.id
     s.job = some ⟨⟨.request i r, w, [], 0⟩, .program (markCell (slotBase seg st.slotSize slot)) timing,
       .mark a seg slot⟩ → a.id < w.tables.streams.length →
     let c : Committed := { w with tables := w.tables.setStream a.id { st with next := st.next + 1, writePos := slot + 1 } }
     ∃ t, exec (.arrayOperationComplete .asIntended) s = .next t ∧
       t.contexts = s.contexts.set i (.held r (.done s.nextCompletion .ok
         (be32 st.next ++ be32 a.stamp.tick.toNat ++ be16 a.temperature.toNat ++ [a.flags, byteOf a.profile] ++
           be32 a.evicted ++ be16 seg ++ be16 slot))) ∧
       t.nextCompletion = s.nextCompletion + 1 ∧ t.job = none ∧ t.committed = c ∧ t.alarms = s.alarms ∧
       t.catSegs = s.catSegs ∧ t.fuses = s.fuses ∧ t.tick = s.tick ∧ t.txn = s.txn ∧ t.sdo = s.sdo ∧
       t.events = ({ s with committed := c }.comparePool).events ∧ t.poolLow = ({ s with committed := c }.comparePool).poolLow ∧
       ∀ x, x ≠ slotBase seg st.slotSize slot + 7 → readByte t.flash x = readByte s.flash x) ∧
  (∀ (s : State) (i : Nat) (r : Request) (task : Machine.Task) (cells : List Host.Cell) (timing : Nat) (stage : Stage)
      (rb : ReadBack) (trip : Bool), Working s task (.program cells timing) stage → task.owner = .request i r →
     ArrayForm s → (cells.map Prod.fst).Nodup →
     let w := task.work
     let failed := fun c : Committed => task.carrying c [] 0x01
     let used : AppendData → Nat → Nat → Bool → Committed := fun a slot n shut => { w with
       tables := w.tables.setStream a.id
         { w.tables.stream a.id with writePos := slot + 1, next := n, closed := shut } }
     ∃ t, exec (if trip then .arrayWatchdogTrip rb else .arrayOperationComplete rb) s = .next t ∧
       OnlyBytes s t (fun x => x ∈ cells.map Prod.fst) ∧
       let ok := trip = false ∧ ∀ x ∈ cells, readByte t.flash x.1 = x.2
       (∀ a seg, stage = .descriptor a seg →
         let st := w.tables.stream a.id
         let link : Word := match st.segs.getLast? with | none => 1 | some l => nextLinkNumber l.linkNumber
         (ok → EntryNext s t task (.linked seg a.id link st.next) [] (.record a)) ∧
         (¬ ok → EntryNext s t (failed w) (.retired seg .descriptorFailed) [] (.allocate a 0))) ∧
       (∀ a seg slot, stage = .body a seg slot →
         let st := w.tables.stream a.id
         let c := used a slot st.next true
         (ok → GoesOn s t task (.program [(seg * 32768 + 512 + slot * st.slotSize + 7, 0x5A)]
           (w.profile w.activeProfile).programClass) (.mark a seg slot)) ∧
         (¬ ok → EntryNext s t (failed c) (.suspect seg) [] (if a.secondAttempt then .giveUp a else .retry a))) ∧
       ∀ a seg slot, stage = .mark a seg slot →
         let st := w.tables.stream a.id
         let c := used a slot (st.next + 1)
         let v := used a slot st.next true
         let reads := readByte t.flash (seg * 32768 + 512 + slot * st.slotSize + 7)
         (ok → a.id < w.tables.streams.length →
           Completes s t i r .ok (recordReply st.next a seg slot) (c st.closed) task.events task.alarms) ∧
         (¬ ok → reads = 0x5A → EntryNext s t (failed (c true)) (.suspect seg) [] (.recorded a seg slot)) ∧
         (¬ ok → reads ≠ 0x5A →
           EntryNext s t (failed v) (.suspect seg) [] (if a.secondAttempt then .giveUp a else .retry a))) ∧
  ∀ (s : State) (i : Nat) (r : Request) (task : Machine.Task) (k pos timing : Nat) (e : Entry) (after : After),
     Working s task (.catEntry k pos e timing) (.catalogue ⟨[.write e], none, after⟩) → task.owner = .request i r →
     ∃ t, exec (.arrayOperationComplete .asIntended) s = .next t ∧ EntryEnds s t task k e (fun u =>
       let now : Stamp := ⟨s.tick, s.timeUnset⟩
       let w := u.work
       let fails := fun (a : AppendData) (status : Status) (more : List Raised) =>
         Completes s t i r status (unrecorded w a) w (u.events ++ more) u.alarms
       (∀ seg id link first a, e = .linked seg id link first → after = .record a → a.id = id →
         id < task.work.tables.streams.length →
         GoesOn s t u (.program (recordCells (w.tables.stream id) a (seg * 32768 + 512))
           (w.profile w.activeProfile).programClass) (.body a seg 0)) ∧
       (∀ a gain, after = .allocate a gain →
         let b := match e with
           | .evicted _ _ _ => { a with evicted := a.evicted + gain }
           | _ => a
         Allocates w b now (GoesOn s t u) (fun e' next => EntryNext s t u e' [] next) (fails b)) ∧
       (∀ a, after = .retry a → NeedsSegment w { a with secondAttempt := true } now (GoesOn s t u)
         (fun e' next => EntryNext s t u e' [] next) (fails { a with secondAttempt := true })) ∧
       (∀ a, after = .giveUp a → fails a .mediaFault []) ∧
       ∀ a seg slot, after = .recorded a seg slot →
         Completes s t i r .ok (recordReply ((w.tables.stream a.id).next - 1) a seg slot) w u.events u.alarms)

/-- When the one entry of a structural request verifies, the entry stands in its position, its change is committed, and the
request completes OK (R36, R41, R60, R75). An entry whose program fails, by the watchdog or by its verify, spends its
position and is written again, from the choice of a compaction on, with the alarm waiting in the request and nothing
committed yet (R36, R47, R49, R60); with no position left the request completes MEDIA_FAULT (R60, R63, R101). What each
entry changes (R51, R54, R55, R57, R59, R62, R71, R75, R154), the events and alarms it brings (R57, R62, R95), and how the
work ends once it and all behind it stands (R58, R83, R98, R121, R156). A compaction's operations: a verified erase leads to
page 0 with the next generation, page n to page n + 1 with the image, page 15 to the mark; the mark makes the target active,
and the entry that brought the compaction is its first, then those of the targets that failed, then the erase of the former
active segment, its own entry if that fails; a target that fails is passed over for the next, with the alarm; none left is
the read-only condition (R59, R61, R62, R63). The model's choices: a record that stands though its segment's suspect entry
cannot be written (log 20), a catalogue segment unusable from its entry on and passed over till then (log 21), a
segment closed but not suspect where its entry cannot be written (log 42), POOL_LOW behind the waiting events (log 35), what a failed erase or a mark stopped by the
watchdog leaves (log 10), a descriptor's offsets and the link number past FFFFFFFFh (logs 41 and 52), sixteen page programs, the generation first (log 11), the generation past FFFFFFFFh (log 40), the
fields without meaning of an ABSENT stream (log 46), an image that records as DIRTY what the mount made so (log 50),
MEDIA_FAULT for a change that stands where a following entry finds no position (log 51), a SENSOR_SOURCE so written that
leaves fallback as it was (log 53). -/
def Obligations.EntryProgramCommitsOrIsRetried : Prop :=
  (∀ (s : State) (i k pos timing : Nat) (r : Request) (w : Committed) (e : Entry) (payload : List Byte),
     s.dev = .running →
     s.job = some ⟨⟨.request i r, w, [], 0⟩, .catEntry k pos e timing, .catalogue ⟨[.write e], none, .reply payload⟩⟩ →
     let c : Committed := { w with tables := applyEntry w.tables e, cat := { w.cat with fill := w.cat.fill + 1 } }
     ∃ t, exec (.arrayOperationComplete .asIntended) s = .next t ∧
       t.contexts = s.contexts.set i (.held r (.done s.nextCompletion .ok payload)) ∧
       t.nextCompletion = s.nextCompletion + 1 ∧ t.job = none ∧ t.committed = c ∧
       (k < s.catSegs.length → ∃ d, t.catSegs[k]? = some d ∧
         d.positions = (catSegAt s.catSegs k).positions.take pos ++ [.entry e]) ∧
       (∀ j, j ≠ k → t.catSegs[j]? = s.catSegs[j]?) ∧ t.fuses = s.fuses ∧ t.tick = s.tick ∧ t.txn = s.txn ∧
       t.sdo = s.sdo ∧ t.echo = s.echo ∧ t.armLatch = s.armLatch ∧ ∀ a, readByte t.flash a = readByte s.flash a) ∧
  (∀ (s : State) (k timing : Nat) (t0 : Machine.Task) (e : Entry) (after : After) (rb : ReadBack), s.dev = .running →
     t0.work.cat.active = some k → t0.work.cat.readOnly = false → t0.work.cat.fill + 9 ≤ 768 →
     s.job = some ⟨t0, .catEntry k t0.work.cat.fill e timing, .catalogue ⟨[.write e], none, after⟩⟩ →
     ∃ t, exec (.arrayWatchdogTrip rb) s = .next t ∧
       t.job = some ⟨{ t0 with
           work := { t0.work with cat := { t0.work.cat with fill := t0.work.cat.fill + 1 } }
           alarms := t0.alarms ||| 0x01 },
         .catEntry k (t0.work.cat.fill + 1) e (t0.work.profile t0.work.activeProfile).programClass,
         .catalogue ⟨[.write e], none, after⟩⟩ ∧
       (rb ≠ .asIntended → exec (.arrayOperationComplete rb) s = .next t) ∧
       Becomes s t { s with job := t.job, catSegs := t.catSegs, alertLow := t.alertLow } ∧
       ∀ j, j ≠ k → t.catSegs[j]? = s.catSegs[j]?) ∧
  (∀ (s : State) (i : Nat) (r : Request) (k timing : Nat) (task : Machine.Task) (e : Entry) (after : After)
      (rb : ReadBack), task.owner = .request i r → task.work.cat.active = some k → task.work.cat.readOnly = true →
     task.work.cat.fill = 767 →
     Working s task (.catEntry k 767 e timing) (.catalogue ⟨[.write e], none, after⟩) →
     ∃ t, exec (.arrayWatchdogTrip rb) s = .next t ∧ OnlyCatalogue s t k ∧
       Completes s t i r .mediaFault (after.unwritten task.work)
         { task.work with cat := { task.work.cat with fill := 768 } } task.events (task.alarms ||| 0x01)) ∧
  (∀ (tb : Tables) (e : Entry), EntryChanges tb (applyEntry tb e) e) ∧
  (∀ g : Word, g ≠ 0xFFFFFFFF → (nextGeneration g).toNat = g.toNat + 1) ∧
  (∀ (s : State) (i : Nat) (r : Request) (task : Machine.Task) (k pos timing : Nat) (e : Entry) (after : After),
     Working s task (.catEntry k pos e timing) (.catalogue ⟨[.write e], none, after⟩) → task.owner = .request i r →
     ∃ t, exec (.arrayOperationComplete .asIntended) s = .next t ∧ EntryEnds s t task k e (fun u =>
       (∀ p, after = .reply p → Completes s t i r .ok p u.work u.events u.alarms) ∧
       (∀ p, after = .formatReply p →
         Completes s t i r .ok (p ++ [byteOf (u.work.tables.usable.countP (· == true))]) u.work u.events u.alarms) ∧
       ∀ code p, after = .option code p →
         Completes s t i r .ok p
           (if code = 2 then { u.work with
             sample := { u.work.sample with fallback := false, failures := 0, dueMark := true } } else u.work)
           u.events u.alarms)) ∧
  (∀ (s : State) (task : Machine.Task) (k pos timing : Nat) (e : Entry),
     Working s task (.catEntry k pos e timing) (.catalogue ⟨[.write e], none, .backgroundEnd⟩) →
     task.owner = .background →
     ∃ t, exec (.arrayOperationComplete .asIntended) s = .next t ∧
       EntryEnds s t task k e (fun u => BackgroundEnds s t false u.work u.events u.alarms)) ∧
  (∀ (s : State) (task : Machine.Task) (k pos timing : Nat) (e : Entry) (rest : List CatAction) (after : After),
     Working s task (.catEntry k pos e timing) (.catalogue ⟨.write e :: rest, none, after⟩) →
     ∃ t, exec (.arrayOperationComplete .asIntended) s = .next t ∧
       EntryEnds s t task k e (fun u => QueueNext s t u
         (match e, after with
           | .evicted _ _ _, .allocate a gain => .allocate { a with evicted := a.evicted + gain } 0
           | _, _ => after) rest)) ∧
  (∀ (s : State) (task : Machine.Task) (k pos timing : Nat) (e : Entry) (rest : List CatAction) (after : After)
      (rb : ReadBack) (trip : Bool), (trip = true ∨ rb ≠ .asIntended) →
     Working s task (.catEntry k pos e timing) (.catalogue ⟨.write e :: rest, none, after⟩) →
     ∃ t, exec (if trip then .arrayWatchdogTrip rb else .arrayOperationComplete rb) s = .next t ∧ OnlyCatalogue s t k ∧
       EntryNext s t (task.carrying { task.work with cat := { task.work.cat with fill := task.work.cat.fill + 1 } } []
         0x01) e rest after) ∧
  (∀ (s : State) (task : Machine.Task) (op : Operation) (k : Nat) (ks bad : List Nat) (step : TargetStep) (e : Entry)
      (rest : List CatAction) (after : After) (rb : ReadBack) (trip : Bool),
     Working s task op (.catalogue ⟨.write e :: rest, some ⟨k :: ks, bad, step⟩, after⟩) → step.Operates k op →
     ∃ t, exec (if trip then .arrayWatchdogTrip rb else .arrayOperationComplete rb) s = .next t ∧ OnlyCatalogue s t k ∧
       let ok := step.Verified t k rb trip
       let w := task.work
       let timing := (w.profile w.activeProfile).programClass
       let failed := task.carrying w [] 0x01
       let goesOn := fun (tk : Machine.Task) (op : Operation) (queue : List CatAction) (c : Option Compaction) =>
         GoesOn s t tk op (.catalogue ⟨queue, c, after⟩)
       let page := fun n => goesOn task (.catPage k n (nextGeneration w.cat.generation) (imageOf w.tables) timing)
         (.write e :: rest) (some ⟨k :: ks, bad, .page n⟩)
       (ok → step = .erasing → page 0) ∧
       (ok → ∀ n, step = .page n → (n < 15 → page (n + 1)) ∧
         (15 ≤ n → goesOn task (.catMark k timing) (.write e :: rest) (some ⟨k :: ks, bad, .marking⟩))) ∧
       (ok → step = .marking →
         goesOn { task with work := { w with cat := { w.cat with
             active := some k, fill := 0, generation := nextGeneration w.cat.generation } } }
           (.catEntry k 0 e timing)
           (.write e :: unusables bad ++ (match w.cat.active with | none => [] | some j => [.eraseFormer j]) ++ rest)
           none) ∧
       (¬ ok → ∀ j js, ks = j :: js → TargetBegins t.catSegs w j (fun op' step' =>
         goesOn failed op' (.write e :: rest) (some ⟨j :: js, bad ++ [k], step'⟩))) ∧
       (¬ ok → ks = [] → ReadOnlyEntry s t failed e (unusables (bad ++ [k]) ++ rest) after) ∧
       (rb = .asIntended → k < s.catSegs.length →
         let old := catSegAt s.catSegs k
         ∃ d, t.catSegs[k]? = some d ∧
           (step = .erasing → d.readsErased = true) ∧
           (∀ generation image timing, op = .catPage k 0 generation image timing →
             d = { old with generation := some generation }) ∧
           (∀ n generation image timing, op = .catPage k (n + 1) generation image timing →
             d = { old with pages := n + 1, image := if n + 1 = 15 then some image else old.image }) ∧
           (step = .marking → trip = false → d = { old with mark := true }) ∧
           (step = .marking → trip = true → d.mark = old.mark))) ∧
  ∀ (s : State) (task : Machine.Task) (j timing : Nat) (rest : List CatAction) (after : After) (rb : ReadBack)
      (trip : Bool), Working s task (.catErase j timing) (.catalogue ⟨.eraseFormer j :: rest, none, after⟩) →
     ∃ t, exec (if trip then .arrayWatchdogTrip rb else .arrayOperationComplete rb) s = .next t ∧ OnlyCatalogue s t j ∧
       let ok := trip = false ∧ (catSegAt t.catSegs j).readsErased = true
       (ok → QueueNext s t task after rest) ∧
       (¬ ok → EntryNext s t (task.carrying task.work [] 0x01) (.unusable j) rest after)

/-- A bank marker that reads programmed is followed by the bank's contents, and contents that read back whole
complete COMMIT_PROFILES OK with the bank used (R145, R150). Every end of a fuse operation: a marker or contents that do
not verify complete FUSE_FAULT with the event of R148 and its alarm, the bank or label being used once its marker stands
(R148, R150, R152); a verified label is PRESENT (R151, R152); an attempt cell is followed by its guard-fix cell, a cell that
blows fixes the guard, cell A failing goes on to cell B, and every failure among them latches the alarm and raises no event
(R143, R144, R148). Contents of a bank that do not verify make no good bank (R150, log 36). What a label of which nothing
was programmed reads is the device's own (log 19); POOL_LOW behind a request's own events is the model's choice (log 35). -/
def Obligations.FuseOperationsCompleteCommit : Prop :=
  (∀ (s : State) (i : Nat) (r : Request) (w : Committed) (second : Bool), s.dev = .running →
    (s.job = some ⟨⟨.request i r, w, [], 0⟩, .fuseCell (if second then .markerB else .markerA), .bankMarker second⟩ →
      ∃ t, exec (.fuseOperationComplete .asIntended) s = .next t ∧
        t.fuses = s.fuses.afterCell (if second then .markerB else .markerA) .asIntended ∧
        t.fuses.cell (if second then .markerB else .markerA) = true ∧
        t.job = some ⟨⟨.request i r, w, [], 0⟩, .fuseBytes (if second then .bankB else .bankA) (bankBytes w.profiles),
          .bankContents second⟩ ∧
        Becomes s t { s with fuses := t.fuses, job := t.job, alertLow := t.alertLow }) ∧
    (s.job = some ⟨⟨.request i r, w, [], 0⟩, .fuseBytes (if second then .bankB else .bankA) (bankBytes w.profiles),
        .bankContents second⟩ →
      ∃ t, exec (.fuseOperationComplete .asIntended) s = .next t ∧
        (if second then t.fuses.bankB else t.fuses.bankA) = some (bankBytes w.profiles) ∧
        t.contexts = s.contexts.set i (.held r (.done s.nextCompletion .ok
          (if second then [0x02, 0x02] else [0x01, 0x01]))) ∧
        t.committed = { w with fuse := { w.fuse with bank := if second then .bUsed else .aUsed } } ∧ t.job = none ∧
        t.catSegs = s.catSegs ∧ t.tick = s.tick ∧ t.txn = s.txn ∧ ∀ a, readByte t.flash a = readByte s.flash a)) ∧
  (∀ (s : State) (i : Nat) (r : Request) (task : Machine.Task) (cell : FuseCell) (stage : Stage) (rb : ReadBack),
     Working s task (.fuseCell cell) stage → task.owner = .request i r →
     let w := task.work
     let f := w.fuse
     let fault := fun (cause : Byte) (object : Word) =>
       task.events ++ [(⟨.fuseFault, ⟨s.tick, s.timeUnset⟩, cause, object⟩ : Raised)]
     let guardFails := fun (t : State) (c : Committed) => Completes s t i r .fuseFault [] c task.events (task.alarms ||| 0x04)
     ∃ t, exec (.fuseOperationComplete rb) s = .next t ∧ OnlyFuses s t ∧
       t.fuses = (if rb = .asIntended then s.fuses.afterCell cell .asIntended else s.fuses) ∧
       let ok := t.fuses.cell cell = true
       (∀ second, stage = .bankMarker second →
         (ok → GoesOn s t task (.fuseBytes (if second then .bankB else .bankA) (bankBytes w.profiles)) (.bankContents second)) ∧
         (¬ ok → Completes s t i r .fuseFault
           [match f.bank with | .fresh => 0x00 | .aUsed => 0x01 | .bUsed => 0x02, if second then 0x02 else 0x01]
           w (fault 0x04 (if second then 2 else 1)) (task.alarms ||| 0x04))) ∧
       (∀ bytes, stage = .labelMarker bytes →
         (ok → GoesOn s t task (.fuseBytes .label (bytes ++ checkBytes bytes)) (.labelContents bytes)) ∧
         (¬ ok → Completes s t i r .fuseFault [0x00] w (fault 0x06 0) (task.alarms ||| 0x04))) ∧
       (∀ second, stage = .guardAttempt second →
         (ok → GoesOn s t task (.fuseCell (if second then .cellB else .cellA)) (.guardFix second)) ∧
         (¬ ok → guardFails t w)) ∧
       (stage = .guardFix false →
         (ok → Completes s t i r .ok [0x01] { w with fuse := { f with guardA := .blown } } task.events task.alarms) ∧
         (¬ ok → f.guardB ≠ .failed →
           GoesOn s t (task.carrying { w with fuse := { f with guardA := .failed } } [] 0x04) (.fuseCell .attemptB)
             (.guardAttempt true)) ∧
         (¬ ok → f.guardB = .failed → guardFails t { w with fuse := { f with guardA := .failed } })) ∧
       (stage = .guardFix true →
         (ok → Completes s t i r .ok [0x02] { w with fuse := { f with guardB := .blown } } task.events task.alarms) ∧
         (¬ ok → guardFails t { w with fuse := { f with guardB := .failed } }))) ∧
  ∀ (s : State) (i : Nat) (r : Request) (task : Machine.Task) (ar : FuseArea) (bytes : List Byte) (stage : Stage)
      (rb : ReadBack), Working s task (.fuseBytes ar bytes) stage → task.owner = .request i r →
     let w := task.work
     let f := w.fuse
     let fault := fun (cause : Byte) (object : Word) =>
       task.events ++ [(⟨.fuseFault, ⟨s.tick, s.timeUnset⟩, cause, object⟩ : Raised)]
     ∃ t, exec (.fuseOperationComplete rb) s = .next t ∧ OnlyFuses s t ∧ (∀ x, t.fuses.cell x = s.fuses.cell x) ∧
       (rb = .asIntended → t.fuses.area ar = some bytes) ∧ (∀ x, x ≠ ar → t.fuses.area x = s.fuses.area x) ∧
       let ok := t.fuses.area ar = some bytes
       (¬ ok → ar ≠ .label → goodBank (t.fuses.area ar) = none) ∧
       (∀ second, stage = .bankContents second →
         let reply : List Byte := if second then [0x02, 0x02] else [0x01, 0x01]
         let c : Committed := { w with fuse := { f with bank := if second then .bUsed else .aUsed } }
         (ok → Completes s t i r .ok reply c task.events task.alarms) ∧
         (¬ ok → Completes s t i r .fuseFault reply c (fault 0x05 (if second then 2 else 1)) (task.alarms ||| 0x04))) ∧
       ∀ label, stage = .labelContents label →
         (ok → Completes s t i r .ok [0x01] { w with fuse := { f with labelState := .present, label := label } }
           task.events task.alarms) ∧
         (¬ ok → ∃ l, (∀ bs, t.fuses.label = some bs → l = bs.take 16) ∧
           Completes s t i r .fuseFault [0x02] { w with fuse := { f with labelState := .damaged, label := l } }
             (fault 0x07 0) (task.alarms ||| 0x04))

/-- A background operation under a sample that is not due begins with the erase of the head of the dirty list, under the
active profile's timing, or pauses if the profile does not permit writes. Under a due sample, the first time and each time a
paused reclaim is looked at again, it refreshes the sample, and erases if the profile then selected permits writes, or
pauses with the refresh and its PROFILE_CHANGED committed (R58, R114, R118, R124); looked at for a change of the profile
with a sample that is not due, it is refreshed or not, as the device chooses (log 13: a free value). An erase of a data
segment, of background reclaim or of forced reclaim, ends: verified, the segment is FREE with its erase count one greater,
up to FFFFFFh; otherwise it is RETIRED with reason 01h, or 02h after a watchdog trip, and the alarm; its entry begins at
once or after a compaction (R47, R55, R56, R57, R60, R61, R63). With a due sample and the external source either begins with
an attempt on the sensor bus (R58, R114). The model's choices: a pause forgets a change that its own refresh made (log 47),
POOL_LOW behind the waiting events (log 35), an image's page programs and what it records of segments that the mount
made DIRTY (logs 11 and 50), the generation past FFFFFFFFh (log 40). -/
def Obligations.BackgroundReclaimErasesDirtyHead : Prop :=
  (∀ (s : State) (env : Env) (d : Nat) (rest : List Nat), s.resetLow = false → s.dev = .running →
     s.sleepPending = false → EngineIdle s → s.reclaimPaused = false → s.committed.cat.readOnly = false →
     s.committed.due = false → s.committed.tables.dirty = d :: rest →
     ∃ t, exec (.backgroundReclaim env) s = .next t ∧
       (s.committed.permits = true →
         t.job = some ⟨⟨.background, s.committed, [], 0⟩,
           .erase d (s.committed.profile s.committed.activeProfile).eraseClass, .backgroundErase d⟩ ∧
         Becomes s t { s with job := t.job, guardHigh := t.guardHigh, alertLow := t.alertLow }) ∧
       (s.committed.permits = false → t.job = none ∧ t.reclaimPaused = true ∧ t.reconsider = false ∧
         Becomes s t { s.comparePool with reclaimPaused := true, reconsider := false, guardHigh := t.guardHigh,
                                          alertLow := t.alertLow })) ∧
  (∀ (s : State) (env : Env) (d : Nat) (rest : List Nat), s.resetLow = false → s.dev = .running →
     s.sleepPending = false → EngineIdle s → s.committed.cat.readOnly = false → s.committed.due = true →
     s.committed.activeSource = .internal → s.committed.tables.dirty = d :: rest →
     let v := dieValue env.die
     let c := s.committed.sampled v .internal
     let evs := changeOf s.committed ⟨s.tick, s.timeUnset⟩ c.activeProfile v
     ∃ t, exec (if s.reclaimPaused then .reclaimReconsider env else .backgroundReclaim env) s = .next t ∧
       (c.permits = true →
         t.job = some ⟨⟨.background, c, evs, 0⟩, .erase d (c.profile c.activeProfile).eraseClass, .backgroundErase d⟩ ∧
         Becomes s t { s with job := t.job, guardHigh := t.guardHigh, alertLow := t.alertLow }) ∧
       (c.permits = false → Becomes s t { ({ s with committed := c }.recordAll evs).comparePool with
         reclaimPaused := true, reconsider := false, guardHigh := t.guardHigh, alertLow := t.alertLow })) ∧
  (∀ (s : State) (env : Env) (d : Nat) (rest : List Nat), s.resetLow = false → s.dev = .running →
     s.sleepPending = false → EngineIdle s → s.reclaimPaused = true → s.reconsider = true →
     s.committed.cat.readOnly = false → s.committed.due = false → s.committed.tables.dirty = d :: rest →
     let v := dieValue env.die
     let old := s.committed
     let refreshed := old.sampled v .internal
     ∃ t, exec (.reclaimReconsider env) s = .next t ∧ t.freeDraws = s.freeDraws + 1 ∧
       (old.activeSource = .external ∧ t.job = some ⟨⟨.background, old, [], 0⟩, .sensor, .backgroundRefresh⟩ ∧
           Becomes s t { s with job := t.job, guardHigh := t.guardHigh, freeDraws := t.freeDraws, alertLow := t.alertLow } ∨
         ∃ c evs, (c = old ∧ evs = [] ∨ old.activeSource = .internal ∧ c = refreshed ∧
             evs = changeOf old ⟨s.tick, s.timeUnset⟩ refreshed.activeProfile v) ∧
           (c.permits = true →
             t.job = some ⟨⟨.background, c, evs, 0⟩, .erase d (c.profile c.activeProfile).eraseClass, .backgroundErase d⟩ ∧
             Becomes s t { s with job := t.job, guardHigh := t.guardHigh, freeDraws := t.freeDraws, alertLow := t.alertLow }) ∧
           (c.permits = false → Becomes s t { ({ s with committed := c }.recordAll evs).comparePool with
             reclaimPaused := true, reconsider := false, guardHigh := t.guardHigh, freeDraws := t.freeDraws,
             alertLow := t.alertLow }))) ∧
  (∀ (s : State) (env : Env), s.resetLow = false → s.dev = .running → s.sleepPending = false → EngineIdle s →
     s.committed.cat.readOnly = false → s.committed.due = true → s.committed.activeSource = .external →
     s.committed.tables.dirty ≠ [] →
     ∃ t, exec (if s.reclaimPaused then .reclaimReconsider env else .backgroundReclaim env) s = .next t ∧
       t.job = some ⟨⟨.background, s.committed, [], 0⟩, .sensor, .backgroundRefresh⟩ ∧
       Becomes s t { s with job := t.job, guardHigh := t.guardHigh, alertLow := t.alertLow }) ∧
  ∀ (s : State) (task : Machine.Task) (d timing : Nat) (stage : Stage) (rb : ReadBack) (trip : Bool),
     Working s task (.erase d timing) stage → ArrayForm s →
     let count := (task.work.tables.seg d).eraseCount
     ∃ t, exec (if trip then .arrayWatchdogTrip rb else .arrayOperationComplete rb) s = .next t ∧
       OnlyBytes s t (fun x => d * 32768 ≤ x ∧ x < (d + 1) * 32768) ∧
       let ok := trip = false ∧ ∀ x, d * 32768 ≤ x → x < (d + 1) * 32768 → readByte t.flash x = 0xFF
       let goesOn := fun after : After =>
         (ok → EntryNext s t task (.erased d (min (count + 1) 0xFFFFFF)) [] after) ∧
         (¬ ok → EntryNext s t (task.carrying task.work [] 0x01)
           (.retired d (if trip then .eraseWatchdog else .eraseVerify)) [] after)
       (stage = .backgroundErase d → goesOn .backgroundEnd) ∧
       ∀ a, stage = .forcedErase a d → goesOn (.allocate a 0)

/-- An attempt on the external sensor, begun by a SAMPLE_TEMPERATURE, ends. A word that can be read: the bus acts of
figure 6-1 behind those of a recovery, the value of the word in the configured format, Q12 or Q2, the profile selected
if the value changed, and the reply (R115, R116, R117, R119, R124, R128). Each failure, ADDRESS_NACK, DATA_NACK, BUS_STUCK,
IMPLAUSIBLE with its raw word, and clock stretching: its acts, reason code and SENSOR_FAULT, the failure counted and the
value stale; the third failure enters fallback with the die's value and selects its profile (R116, R117, R119, R120,
R128). The refresh of step 6 ends the same way, by the same acts, with TEMP_INHIBIT by the profile newly selected, the refresh standing, or
the work of the request, whatever its kind (R39, R40, R125); a background operation's with the erase or the pause (R58). In
the mount the attempt's end is the mount's first sample (R114, R119, R173). The model's choices: the profile of that sample
selected at once (log 45), the record of the bus acts (log 25), the age 0 of an absent sample (log 27), POOL_LOW behind the
waiting events (log 35), that a pause forgets a change its own refresh made (log 47), and in the work behind step 6 the
offsets of a descriptor and the link number past FFFFFFFFh (logs 41 and 52), an image's page programs and records (logs 11 and 50) and the generation past FFFFFFFFh
(log 40). -/
def Obligations.SensorAttemptsEnd : Prop :=
  let frame : State → State → Prop := fun s t => t.catSegs = s.catSegs ∧ t.fuses = s.fuses ∧ t.tick = s.tick ∧
    t.txn = s.txn ∧ t.sdo = s.sdo ∧ ∀ a, readByte t.flash a = readByte s.flash a
  (∀ (s : State) (i : Nat) (r : Request) (w : Committed) (evs : List Raised) (al : BitVec 6) (n : Nat) (word : Half)
      (env : Env), s.dev = .running → s.resetLow = false →
     s.job = some ⟨⟨.request i r, w, evs, al⟩, .sensor, .sampling⟩ →
     let g := w.tables.settings
     n ≤ 10 → g.sensorFormat.toNat ≤ 1 → -220 ≤ busValue g word → busValue g word ≤ 600 →
     let v : Half := BitVec.ofInt 16 (busValue g word)
     let index := if w.sample.value = some v then w.activeProfile else selectIndex w.profiles (some v)
     let c : Committed := { w with
       sample := ⟨some v, some .external, 0, false, false, 0, w.sample.fallback⟩
       activeProfile := index }
     ∃ t, exec (.sensorAttempt ⟨n, true, true, true, word⟩ env) s = .next t ∧
       t.sensorLog = busRecovery n ++ busRun g word ∧
       Completes s t i r .ok ([0x00, 0x00] ++ be16 v.toNat ++ [0x00] ++ be32 0 ++
         [0x00, 0x00, if w.sample.fallback then 0x01 else 0x00, byteOf index, if c.permits then 0x01 else 0x00])
         c (evs ++ changeOf w ⟨s.tick, s.timeUnset⟩ index v) al ∧ frame s t) ∧
  (∀ (s : State) (i : Nat) (r : Request) (task : Machine.Task) (run : BusRun) (env : Env), s.dev = .running →
     s.resetLow = false → task.owner = .request i r → s.job = some ⟨task, .sensor, .sampling⟩ →
     let g := task.work.tables.settings
     ∃ t, exec (.sensorAttempt run env) s = .next t ∧ frame s t ∧
       (10 < run.sdaHighAfter →
         t.sensorLog = busRecovery 9 ++ ([.release] : List BusAct) ∧ AttemptFails s t i r task env.die 0x03 0) ∧
       (run.sdaHighAfter ≤ 10 → run.ackWrite = false →
         t.sensorLog = busRecovery run.sdaHighAfter ++
           ([.start, .sent (busWriteByte g) false, .stop, .release] : List BusAct) ∧
         AttemptFails s t i r task env.die 0x01 0) ∧
       (run.sdaHighAfter ≤ 10 → run.ackWrite = true → run.ackPointer = false →
         t.sensorLog = busRecovery run.sdaHighAfter ++
           ([.start, .sent (busWriteByte g) true, .sent (busPointerByte g) false, .stop, .release] : List BusAct) ∧
         AttemptFails s t i r task env.die 0x02 0) ∧
       (run.sdaHighAfter ≤ 10 → run.ackWrite = true → run.ackPointer = true → run.ackRead = false →
         t.sensorLog = busRecovery run.sdaHighAfter ++ ([.start, .sent (busWriteByte g) true, .sent (busPointerByte g) true,
           .repeatedStart, .sent (busReadByte g) false, .stop, .release] : List BusAct) ∧
         AttemptFails s t i r task env.die 0x01 0) ∧
       (run.sdaHighAfter ≤ 10 → run.ackWrite = true → run.ackPointer = true → run.ackRead = true →
         g.sensorFormat.toNat ≤ 1 → ¬ (-220 ≤ busValue g run.word ∧ busValue g run.word ≤ 600) →
         t.sensorLog = busRecovery run.sdaHighAfter ++ busRun g run.word ∧
         AttemptFails s t i r task env.die 0x05 run.word.toNat)) ∧
  (∀ (s : State) (i : Nat) (r : Request) (task : Machine.Task) (env : Env), s.dev = .running → s.resetLow = false →
     task.owner = .request i r → s.job = some ⟨task, .sensor, .sampling⟩ →
     ∃ t, exec (.stretchTimeout env) s = .next t ∧ t.sensorLog = [.release] ∧ t.job = none ∧
       AttemptFails s t i r task env.die 0x04 0 ∧ frame s t) ∧
  (∀ (s : State) (task : Machine.Task) (stage : Stage) (run : BusRun) (env : Env), s.dev = .running → s.resetLow = false →
     s.job = some ⟨task, .sensor, stage⟩ →
     let w := task.work
     let g := w.tables.settings
     let now : Stamp := ⟨s.tick, s.timeUnset⟩
     let ends := fun (t : State) (o : Committed × List Raised) => RefreshEnds s t task stage o.1 o.2
     let fails := fun (t : State) (reason : Byte) (raw : Nat) => ends t (failureOf w now env.die reason raw)
     (∃ t, exec (.stretchTimeout env) s = .next t ∧ t.sensorLog = [.release] ∧ frame s t ∧ fails t 0x04 0) ∧
     ∃ t, exec (.sensorAttempt run env) s = .next t ∧ frame s t ∧
       (10 < run.sdaHighAfter → t.sensorLog = busRecovery 9 ++ ([.release] : List BusAct) ∧ fails t 0x03 0) ∧
       (run.sdaHighAfter ≤ 10 → run.ackWrite = false →
         t.sensorLog = busRecovery run.sdaHighAfter ++
           ([.start, .sent (busWriteByte g) false, .stop, .release] : List BusAct) ∧ fails t 0x01 0) ∧
       (run.sdaHighAfter ≤ 10 → run.ackWrite = true → run.ackPointer = false →
         t.sensorLog = busRecovery run.sdaHighAfter ++
           ([.start, .sent (busWriteByte g) true, .sent (busPointerByte g) false, .stop, .release] : List BusAct) ∧
         fails t 0x02 0) ∧
       (run.sdaHighAfter ≤ 10 → run.ackWrite = true → run.ackPointer = true → run.ackRead = false →
         t.sensorLog = busRecovery run.sdaHighAfter ++ ([.start, .sent (busWriteByte g) true, .sent (busPointerByte g) true,
           .repeatedStart, .sent (busReadByte g) false, .stop, .release] : List BusAct) ∧ fails t 0x01 0) ∧
       (run.sdaHighAfter ≤ 10 → run.ackWrite = true → run.ackPointer = true → run.ackRead = true →
         g.sensorFormat.toNat ≤ 1 →
         t.sensorLog = busRecovery run.sdaHighAfter ++ busRun g run.word ∧
         (¬ (-220 ≤ busValue g run.word ∧ busValue g run.word ≤ 600) → fails t 0x05 run.word.toNat) ∧
         (-220 ≤ busValue g run.word → busValue g run.word ≤ 600 →
           let v : Half := BitVec.ofInt 16 (busValue g run.word)
           let c := w.sampled v .external
           ends t (c, changeOf w now c.activeProfile v)))) ∧
  (∀ (s : State) (word : Half) (env : Env), s.dev = .mounting → s.resetLow = false → s.mountSampled = false →
     s.job = none → s.committed.sample = Sample.initial → s.committed.activeProfile = 0 → s.events.length < 15 →
     let g := s.committed.tables.settings
     g.sensorSource = 0x0000 → g.sensorFormat.toNat ≤ 1 →
     (∃ t, exec (.stretchTimeout env) s = .next t ∧ t.mountSampled = true ∧ t.sensorLog = [.release] ∧
       t.committed = { s.committed with sample := ⟨none, none, 0, false, false, 1, false⟩ } ∧
       t.events = s.events ++ [⟨s.nextEvent, ⟨.sensorFault, ⟨s.tick, s.timeUnset⟩, 0x04, 0x00010000⟩⟩] ∧
       t.dev = .mounting ∧ t.contexts = s.contexts ∧ frame s t) ∧
     (-220 ≤ busValue g word → busValue g word ≤ 600 →
       let v : Half := BitVec.ofInt 16 (busValue g word)
       let index := selectIndex s.committed.profiles (some v)
       ∃ t, exec (.sensorAttempt ⟨0, true, true, true, word⟩ env) s = .next t ∧ t.mountSampled = true ∧
         t.sensorLog = busRun g word ∧
         t.committed = { s.committed with
           sample := ⟨some v, some .external, 0, false, false, 0, false⟩, activeProfile := index } ∧
         t.events.map Event.what = s.events.map Event.what ++
           changeOf s.committed ⟨s.tick, s.timeUnset⟩ index v ∧
         t.dev = .mounting ∧ t.contexts = s.contexts ∧ frame s t))
end

