-- ==== Sys2Proof/Laws/State.lean ====
section
/-! SUPPORT. The small lemmas of the named updates, so that no proof unfolds a record update. -/

namespace Sys2Proof.Machine

/-! ### settle, outcome -/

theorem State.outcome_eq (s : State) : s.outcome = .next s.settle := rfl

/-- A four-byte number below the last is followed by the one greater (R52, R59). -/
theorem nextNumber_toNat (pastLast : Word) {n : Word} (h : n ≠ 0xFFFFFFFF) :
    (nextNumber pastLast n).toNat = n.toNat + 1 := by
  rw [nextNumber, if_neg h]
  have hn : n.toNat ≠ 0xFFFFFFFF := fun he => h (BitVec.eq_of_toNat_eq he)
  rw [BitVec.toNat_add]
  have := n.isLt
  simp; omega

@[simp] theorem State.settle_alertLow (s : State) : s.settle.alertLow = s.alertLevel := rfl
@[simp] theorem State.settle_alertLevel (s : State) : s.settle.alertLevel = s.alertLevel := rfl
@[simp] theorem State.settle_pending (s : State) : s.settle.pending = s.pending := rfl
@[simp] theorem State.settle_contexts (s : State) : s.settle.contexts = s.contexts := rfl
@[simp] theorem State.settle_flash (s : State) : s.settle.flash = s.flash := rfl
@[simp] theorem State.settle_catSegs (s : State) : s.settle.catSegs = s.catSegs := rfl
@[simp] theorem State.settle_fuses (s : State) : s.settle.fuses = s.fuses := rfl
@[simp] theorem State.settle_events (s : State) : s.settle.events = s.events := rfl
@[simp] theorem State.settle_alarms (s : State) : s.settle.alarms = s.alarms := rfl
@[simp] theorem State.settle_timeUnset (s : State) : s.settle.timeUnset = s.timeUnset := rfl
@[simp] theorem State.settle_committed (s : State) : s.settle.committed = s.committed := rfl
@[simp] theorem State.settle_job (s : State) : s.settle.job = s.job := rfl
@[simp] theorem State.settle_dev (s : State) : s.settle.dev = s.dev := rfl
@[simp] theorem State.settle_freeDraws (s : State) : s.settle.freeDraws = s.freeDraws := rfl
@[simp] theorem State.settle_resetLow (s : State) : s.settle.resetLow = s.resetLow := rfl
@[simp] theorem State.settle_csLow (s : State) : s.settle.csLow = s.csLow := rfl
@[simp] theorem State.settle_guardHigh (s : State) : s.settle.guardHigh = s.guardHigh := rfl
@[simp] theorem State.settle_sdo (s : State) : s.settle.sdo = s.sdo := rfl
@[simp] theorem State.settle_sensorLog (s : State) : s.settle.sensorLog = s.sensorLog := rfl
@[simp] theorem State.settle_txn (s : State) : s.settle.txn = s.txn := rfl
@[simp] theorem State.settle_leadSdo (s : State) : s.settle.leadSdo = s.leadSdo := rfl
@[simp] theorem State.settle_offered (s : State) : s.settle.offered = s.offered := rfl
@[simp] theorem State.settle_resetArm (s : State) : s.settle.resetArm = s.resetArm := rfl
@[simp] theorem State.settle_frameErrors (s : State) : s.settle.frameErrors = s.frameErrors := rfl
@[simp] theorem State.settle_incompleteFrames (s : State) : s.settle.incompleteFrames = s.incompleteFrames := rfl
@[simp] theorem State.settle_unknownLeads (s : State) : s.settle.unknownLeads = s.unknownLeads := rfl
@[simp] theorem State.settle_nextAcceptance (s : State) : s.settle.nextAcceptance = s.nextAcceptance := rfl
@[simp] theorem State.settle_nextCompletion (s : State) : s.settle.nextCompletion = s.nextCompletion := rfl
@[simp] theorem State.settle_echo (s : State) : s.settle.echo = s.echo := rfl
@[simp] theorem State.settle_armLatch (s : State) : s.settle.armLatch = s.armLatch := rfl
@[simp] theorem State.settle_reclaimPaused (s : State) : s.settle.reclaimPaused = s.reclaimPaused := rfl
@[simp] theorem State.settle_reconsider (s : State) : s.settle.reconsider = s.reconsider := rfl
@[simp] theorem State.settle_poolLow (s : State) : s.settle.poolLow = s.poolLow := rfl
@[simp] theorem State.settle_poolLowArmed (s : State) : s.settle.poolLowArmed = s.poolLowArmed := rfl
@[simp] theorem State.settle_sleepPending (s : State) : s.settle.sleepPending = s.sleepPending := rfl
@[simp] theorem State.settle_ready (s : State) : s.settle.ready = s.ready := rfl
@[simp] theorem State.settle_mountOutcome (s : State) : s.settle.mountOutcome = s.mountOutcome := rfl
@[simp] theorem State.settle_mountSampled (s : State) : s.settle.mountSampled = s.mountSampled := rfl
@[simp] theorem State.settle_tornFound (s : State) : s.settle.tornFound = s.tornFound := rfl
@[simp] theorem State.settle_faultedProfile (s : State) : s.settle.faultedProfile = s.faultedProfile := rfl
@[simp] theorem State.settle_tick (s : State) : s.settle.tick = s.tick := rfl
@[simp] theorem State.settle_tickPeriod (s : State) : s.settle.tickPeriod = s.tickPeriod := rfl
@[simp] theorem State.settle_nextEvent (s : State) : s.settle.nextEvent = s.nextEvent := rfl
@[simp] theorem State.settle_overflow (s : State) : s.settle.overflow = s.overflow := rfl

/-! ### latch, record, recordAll, comparePool -/

@[simp] theorem State.latch_alarms (s : State) (a : BitVec 6) : (s.latch a).alarms = s.alarms ||| a := rfl
@[simp] theorem State.latch_contexts (s : State) (a : BitVec 6) : (s.latch a).contexts = s.contexts := rfl
@[simp] theorem State.latch_events (s : State) (a : BitVec 6) : (s.latch a).events = s.events := rfl

/-- Recording an event touches nothing but the list, its numbering and the overflow counter. -/
theorem State.record_frame (s : State) (e : Raised) :
    s.record e = { s with events := (s.record e).events, nextEvent := (s.record e).nextEvent,
                          overflow := (s.record e).overflow } := by
  unfold State.record; split <;> rfl

/-- Recording events touches nothing but the list, its numbering and the overflow counter. -/
theorem State.recordAll_frame (es : List Raised) (s : State) :
    s.recordAll es = { s with events := (s.recordAll es).events, nextEvent := (s.recordAll es).nextEvent,
                              overflow := (s.recordAll es).overflow } := by
  induction es generalizing s with
  | nil => rfl
  | cons e es ih =>
    have h : s.recordAll (e :: es) = (s.record e).recordAll es := rfl
    rw [h, ih (s.record e)]
    rw [State.record_frame s e]

@[simp] theorem State.recordAll_nil (s : State) : s.recordAll [] = s := rfl

/-- What recording one event does depends on the list, its numbering and the overflow counter alone. -/
theorem State.record_congr {s u : State} (e : Raised) (h1 : s.events = u.events) (h2 : s.nextEvent = u.nextEvent)
    (h3 : s.overflow = u.overflow) :
    (s.record e).events = (u.record e).events ∧ (s.record e).nextEvent = (u.record e).nextEvent ∧
      (s.record e).overflow = (u.record e).overflow := by
  unfold State.record; rw [h1]; split <;> simp [h2, h3]

/-- What recording events does depends on the list, its numbering and the overflow counter alone. -/
theorem State.recordAll_congr (es : List Raised) {s u : State} (h1 : s.events = u.events)
    (h2 : s.nextEvent = u.nextEvent) (h3 : s.overflow = u.overflow) :
    (s.recordAll es).events = (u.recordAll es).events ∧ (s.recordAll es).nextEvent = (u.recordAll es).nextEvent ∧
      (s.recordAll es).overflow = (u.recordAll es).overflow := by
  induction es generalizing s u with
  | nil => exact ⟨h1, h2, h3⟩
  | cons e es ih => obtain ⟨a, b, c⟩ := State.record_congr e h1 h2 h3; exact ih a b c

/-- The list never grows past its limit (R181). -/
theorem State.record_events_length (s : State) (e : Raised) (h : s.events.length ≤ maxEvents) :
    (s.record e).events.length ≤ maxEvents := by
  unfold State.record; split
  · simp; omega
  · simpa using h

/-- The comparison touches nothing but the pool level, its armed flag and the event list (R66). -/
theorem State.comparePool_frame (s : State) :
    s.comparePool = { s with
      poolLow := s.comparePool.poolLow
      poolLowArmed := s.comparePool.poolLowArmed
      events := s.comparePool.events
      nextEvent := s.comparePool.nextEvent
      overflow := s.comparePool.overflow } := by
  unfold State.comparePool
  simp only
  split
  · split
    · rw [State.record_frame]
    · rfl
  · rfl

/-- What the comparison does depends on the committed state, the time, the armed flag and the event list alone. -/
theorem State.comparePool_congr {s u : State} (h1 : s.events = u.events) (h2 : s.nextEvent = u.nextEvent)
    (h3 : s.overflow = u.overflow) (h4 : s.committed = u.committed) (h5 : s.poolLowArmed = u.poolLowArmed)
    (h6 : s.tick = u.tick) (h7 : s.timeUnset = u.timeUnset) :
    s.comparePool.events = u.comparePool.events ∧ s.comparePool.nextEvent = u.comparePool.nextEvent ∧
      s.comparePool.overflow = u.comparePool.overflow ∧ s.comparePool.poolLow = u.comparePool.poolLow ∧
      s.comparePool.poolLowArmed = u.comparePool.poolLowArmed := by
  have hst : s.stamp = u.stamp := by simp [State.stamp, h6, h7]
  unfold State.comparePool
  rw [h4, h5, hst]
  simp only
  split
  · split
    · unfold State.record; simp only [h1]; split <;> simp [h2, h3]
    · simp [h1, h2, h3]
  · simp [h1, h2, h3]

/-- Recording events and then comparing touches nothing but the event list and the pool level (R66, R181). -/
theorem State.recordAll_comparePool_frame (s : State) (es : List Raised) :
    (s.recordAll es).comparePool = { s with
      poolLow := (s.recordAll es).comparePool.poolLow
      poolLowArmed := (s.recordAll es).comparePool.poolLowArmed
      events := (s.recordAll es).comparePool.events
      nextEvent := (s.recordAll es).comparePool.nextEvent
      overflow := (s.recordAll es).comparePool.overflow } := by
  have c := State.comparePool_frame (s.recordAll es)
  have r := State.recordAll_frame es s
  generalize (s.recordAll es).comparePool = Z at *
  generalize s.recordAll es = R at *
  calc Z = _ := c
    _ = _ := by rw [r]

/-- Recording events and then comparing depends on what those two look at alone. -/
theorem State.recordAll_comparePool_congr {s u : State} (es : List Raised) (h1 : s.events = u.events)
    (h2 : s.nextEvent = u.nextEvent) (h3 : s.overflow = u.overflow) (h4 : s.committed = u.committed)
    (h5 : s.poolLowArmed = u.poolLowArmed) (h6 : s.tick = u.tick) (h7 : s.timeUnset = u.timeUnset) :
    (s.recordAll es).comparePool.events = (u.recordAll es).comparePool.events ∧
      (s.recordAll es).comparePool.nextEvent = (u.recordAll es).comparePool.nextEvent ∧
      (s.recordAll es).comparePool.overflow = (u.recordAll es).comparePool.overflow ∧
      (s.recordAll es).comparePool.poolLow = (u.recordAll es).comparePool.poolLow ∧
      (s.recordAll es).comparePool.poolLowArmed = (u.recordAll es).comparePool.poolLowArmed := by
  obtain ⟨a, b, c⟩ := State.recordAll_congr es h1 h2 h3
  have f1 := State.recordAll_frame es s
  have f2 := State.recordAll_frame es u
  apply State.comparePool_congr a b c <;> rw [f1, f2] <;> assumption

/-! ### begin, finish -/

@[simp] theorem State.begin_job (s : State) (t : Task) (op : Operation) (st : Stage) :
    (s.begin t op st).job = some ⟨t, op, st⟩ := rfl
@[simp] theorem State.begin_contexts (s : State) (t : Task) (op : Operation) (st : Stage) :
    (s.begin t op st).contexts = s.contexts := rfl
@[simp] theorem State.begin_committed (s : State) (t : Task) (op : Operation) (st : Stage) :
    (s.begin t op st).committed = s.committed := rfl
@[simp] theorem State.begin_flash (s : State) (t : Task) (op : Operation) (st : Stage) :
    (s.begin t op st).flash = s.flash := rfl
@[simp] theorem State.finish_contexts (s : State) (i : Nat) (r : Request) (st : Status) (p : List Byte) :
    (s.finish i r st p).contexts = s.contexts.set i (.held r (.done s.nextCompletion st p)) := rfl
@[simp] theorem State.finish_committed (s : State) (i : Nat) (r : Request) (st : Status) (p : List Byte) :
    (s.finish i r st p).committed = s.committed := rfl
@[simp] theorem State.finish_flash (s : State) (i : Nat) (r : Request) (st : Status) (p : List Byte) :
    (s.finish i r st p).flash = s.flash := rfl
@[simp] theorem State.finish_nextCompletion (s : State) (i : Nat) (r : Request) (st : Status) (p : List Byte) :
    (s.finish i r st p).nextCompletion = s.nextCompletion + 1 := rfl

/-! ### The link -/

@[simp] theorem State.csFall_txn (s : State) : s.csFall.txn = s.txn := rfl
@[simp] theorem State.csFall_contexts (s : State) : s.csFall.contexts = s.contexts := rfl
@[simp] theorem State.csFall_linkDecodes (s : State) : s.csFall.linkDecodes = s.linkDecodes := rfl

/-- The lead point touches nothing but the link and GUARD# as it was looked at. -/
theorem State.leadPoint_frame (s : State) (b : Byte) (g : Bool) :
    s.leadPoint b g = { s with
      guardHigh := (s.leadPoint b g).guardHigh
      csLow := true
      txn := (s.leadPoint b g).txn
      leadSdo := (s.leadPoint b g).leadSdo
      offered := (s.leadPoint b g).offered
      sdo := (s.leadPoint b g).sdo
      resetArm := (s.leadPoint b g).resetArm
      unknownLeads := (s.leadPoint b g).unknownLeads } := by
  unfold State.leadPoint State.csFall; simp only; split
  · rfl
  · split <;> rfl

/-- CS# rising touches nothing but the link. -/
theorem State.csRise_frame (s : State) :
    s.csRise = { s with csLow := false, txn := .idle, sdo := .highZ, incompleteFrames := s.csRise.incompleteFrames } :=
  rfl

/-- A new assertion touches nothing but the link and GUARD# as it was looked at. -/
theorem State.newTxn_frame (s : State) (b : Byte) (g : Bool) :
    s.newTxn b g = { s with
      guardHigh := (s.newTxn b g).guardHigh
      csLow := (s.newTxn b g).csLow
      txn := (s.newTxn b g).txn
      leadSdo := (s.newTxn b g).leadSdo
      offered := (s.newTxn b g).offered
      sdo := (s.newTxn b g).sdo
      resetArm := (s.newTxn b g).resetArm
      unknownLeads := (s.newTxn b g).unknownLeads
      incompleteFrames := (s.newTxn b g).incompleteFrames } := by
  unfold State.newTxn
  split
  · rw [State.leadPoint_frame]; rfl
  · rw [State.leadPoint_frame]

/-- Opening a transaction touches nothing but the link and GUARD# as it was looked at. -/
theorem State.openTxn_frame (s : State) (b : Byte) (g : Bool) :
    s.openTxn b g = { s with
      guardHigh := (s.openTxn b g).guardHigh
      csLow := (s.openTxn b g).csLow
      txn := (s.openTxn b g).txn
      leadSdo := (s.openTxn b g).leadSdo
      offered := (s.openTxn b g).offered
      sdo := (s.openTxn b g).sdo
      resetArm := (s.openTxn b g).resetArm
      unknownLeads := (s.openTxn b g).unknownLeads
      incompleteFrames := (s.openTxn b g).incompleteFrames } := by
  unfold State.openTxn
  split
  · split
    · rfl
    · exact State.newTxn_frame s b g
  · split
    · rfl
    · exact State.newTxn_frame s b g
  all_goals exact State.newTxn_frame s b g

/-- With the link idle a lead byte is a new lead point, whose captures stand from then on (R4, R5, R12, R15, R17). -/
theorem LinkIdle.newTxn_eq {s : State} (h : LinkIdle s) (b : Byte) (g : Bool) :
    s.newTxn b g = { s with
      guardHigh := if b = 0xA4 then g else s.guardHigh
      csLow := true
      txn := .lead b s.resetArm
      leadSdo := some 0xFF
      offered := if b = 0xA2 then nextReply s.contexts else none
      sdo := .drive (s.leadBytes b g) 0xFF
      resetArm := false
      unknownLeads := if knownLead b then s.unknownLeads else satInc s.unknownLeads } := by
  obtain ⟨h1, h2, h3, h4⟩ := h
  simp [State.newTxn, State.leadPoint, State.csFall, State.linkDecodes, h1, h2, h3]

/-- With the link idle a command's lead byte is a new lead point. -/
theorem LinkIdle.openTxn_eq {s : State} (h : LinkIdle s) (b : Byte) (g : Bool) :
    s.openTxn b g = { s with
      guardHigh := if b = 0xA4 then g else s.guardHigh
      csLow := true
      txn := .lead b s.resetArm
      leadSdo := some 0xFF
      offered := if b = 0xA2 then nextReply s.contexts else none
      sdo := .drive (s.leadBytes b g) 0xFF
      resetArm := false
      unknownLeads := if knownLead b then s.unknownLeads else satInc s.unknownLeads } := by
  rw [← LinkIdle.newTxn_eq h]
  simp [State.openTxn, h.2.2.2]

/-- A command that continues the open transaction opens none (log 3). -/
theorem State.openTxn_continues {s : State} {b : Byte} {a : Bool} (ht : s.txn = .lead b a) (hc : s.csLow = true)
    (g : Bool) : s.openTxn b g = s := by
  simp [State.openTxn, ht, hc]

/-- With the link idle the device decodes what follows the lead byte. -/
theorem LinkIdle.decoding_openTxn {s : State} (h : LinkIdle s) (b : Byte) (g : Bool) :
    (s.openTxn b g).decoding = some s.resetArm := by
  rw [LinkIdle.openTxn_eq h]
  obtain ⟨h1, h2, h3, h4⟩ := h
  simp [State.decoding, State.linkDecodes, h1, h2]

theorem Accepts.linkIdle {s : State} {tag : Byte} (h : Accepts s tag) : LinkIdle s := by
  obtain ⟨h1, h2, _, h4, h5, _⟩ := h
  exact ⟨h1, by simp [h2], h4, h5⟩

/-! ### Attempts, in the terms of Sys2Proof/Safety.lean -/

/-- The free slots of R72: 0 for an empty list and for a closed newest segment (R48), else what is past the write
position. -/
theorem Tables.freeSlots_eq (tb : Tables) (st : Machine.Stream) : tb.freeSlots st = match st.segs.getLast? with
    | none => 0
    | some l =>
      if st.state = .opened ∧ (tb.seg l.seg).suspect = false ∧ st.closed = false then
        63 * (512 / st.slotSize) - st.writePos
      else 0 := by
  unfold Tables.freeSlots Tables.newestOpen Stream.newest
  cases st.segs.getLast? with
  | none => rfl
  | some l =>
    rw [show 63 * (512 / st.slotSize) = slotsPerSegment st.slotSize from rfl]
    by_cases hc : st.state = .opened ∧ (tb.seg l.seg).suspect = false ∧ st.closed = false
    · by_cases hw : st.writePos < slotsPerSegment st.slotSize
      · simp [hc, hw]
      · simp only [hc, hw, and_false, if_false, and_self, if_true]; omega
    · simp only [if_neg hc]
      rw [if_neg fun h => hc ⟨h.1, h.2.1, h.2.2.1⟩]

/-- A successful attempt leaves `Committed.sampled` and raises `changeOf` (R119, R124). -/
theorem attemptSucceeds_eq (c : Committed) (st : Stamp) (v : Half) (src : Source) :
    attemptSucceeds c st v src = (c.sampled v src, changeOf c st (c.sampled v src).activeProfile v) := by
  unfold attemptSucceeds Committed.sampled indexFor changeOf selectProfile raised noSample Sample.succeeded
  by_cases h : c.sample.value = some v
  · simp [h]
  · simp [h]
    split <;> simp_all

/-- A failed attempt leaves and raises what `failureOf` says (R119, R120). -/
theorem attemptFails_eq (c : Committed) (st : Stamp) (reason : SensorReason) (raw : Nat) (env : Env) :
    attemptFails c st reason raw env = failureOf c st env.die (byteOf reason.code) raw := by
  unfold attemptFails failureOf enterFallback changeOf selectProfile raised noSample Sample.succeeded Sample.failed
  simp only
  by_cases h : c.sample.failures + 1 < 3
  · rw [if_neg (by omega), if_pos h]
  · rw [if_pos (by omega), if_neg h]
    split <;> simp_all

end Sys2Proof.Machine
end

