-- ==== Sys2Proof/Laws/Engine.lean ====
section
/-! SUPPORT. What the engine and the Media Manager can do, said once: every piece of their work leaves the link, the
time, the array, the fuse store and the pins alone, never clears an alarm, and either goes on with the same contexts
or completes its own request. -/

namespace Sys2Proof.Machine

/-! ### The frame of the engine's work -/

/-- `t` follows from `s` by work of this owner (R36, R37, R41, R178). -/
structure WorkFrame (o : Owner) (s t : State) : Prop where
  /-- nothing else is touched -/
  only : t = { s with
    committed := t.committed
    job := t.job
    contexts := t.contexts
    nextCompletion := t.nextCompletion
    alarms := t.alarms
    events := t.events
    nextEvent := t.nextEvent
    overflow := t.overflow
    poolLow := t.poolLow
    poolLowArmed := t.poolLowArmed
    dev := t.dev
    faultedProfile := t.faultedProfile
    tickPeriod := t.tickPeriod
    reclaimPaused := t.reclaimPaused
    reconsider := t.reconsider }
  /-- no alarm is cleared -/
  alarms : s.alarms &&& t.alarms = s.alarms
  /-- the device state changes from FAULTED to RUNNING at most, and with it the index shown there (R177) -/
  dev : t.dev = s.dev ∧ t.faultedProfile = s.faultedProfile ∨
    s.dev = .faulted ∧ t.dev = .running ∧ t.faultedProfile = none
  /-- an operation is begun, or the owner's request completes, or a background operation ends -/
  ends : (t.contexts = s.contexts ∧ t.nextCompletion = s.nextCompletion ∧ t.committed = s.committed ∧
      t.alarms = s.alarms ∧ t.events = s.events) ∨
    (∃ i r st p, o = .request i r ∧ t.contexts = s.contexts.set i (.held r (.done s.nextCompletion st p)) ∧
      t.nextCompletion = s.nextCompletion + 1 ∧ t.job = none) ∨
    (t.contexts = s.contexts ∧ t.nextCompletion = s.nextCompletion ∧ t.job = none)

/-- An operation begins. -/
theorem State.begin_workFrame (o : Owner) (s : State) (t : Task) (op : Operation) (stage : Stage) :
    WorkFrame o s (s.begin t op stage) :=
  ⟨rfl, by simp [State.begin], .inl ⟨rfl, rfl⟩, .inl ⟨rfl, rfl, rfl, rfl, rfl⟩⟩

/-- The end of a commit: events recorded, and the pool level compared unless there is no catalogue (R66, R181). -/
theorem State.commitEnd_frame (u : State) (es : List Raised) :
    (if (u.recordAll es).dev = .faulted then u.recordAll es else (u.recordAll es).comparePool) = { u with
      events := (if (u.recordAll es).dev = .faulted then u.recordAll es else (u.recordAll es).comparePool).events
      nextEvent := (if (u.recordAll es).dev = .faulted then u.recordAll es else (u.recordAll es).comparePool).nextEvent
      overflow := (if (u.recordAll es).dev = .faulted then u.recordAll es else (u.recordAll es).comparePool).overflow
      poolLow := (if (u.recordAll es).dev = .faulted then u.recordAll es else (u.recordAll es).comparePool).poolLow
      poolLowArmed :=
        (if (u.recordAll es).dev = .faulted then u.recordAll es else (u.recordAll es).comparePool).poolLowArmed } := by
  split
  · have h := State.recordAll_frame es u
    generalize u.recordAll es = R at *
    rw [h]
  · have h := State.recordAll_comparePool_frame u es
    generalize (u.recordAll es).comparePool = R at *
    exact h

/-- Committing a task touches what R36 and R41 name, and nothing else; it changes the device state from FAULTED to
RUNNING at most (R85). -/
theorem State.commit_frame (s : State) (t : Task) :
    s.commit t = { s with
      committed := t.work
      job := none
      alarms := s.alarms ||| t.alarms
      tickPeriod :=
        if t.work.tables.settings.tickPeriod = s.committed.tables.settings.tickPeriod then s.tickPeriod
        else t.work.tables.settings.tickPeriod.toNat
      dev := if s.dev = DevState.faulted ∧ t.work.cat.active.isSome = true then .running else s.dev
      faultedProfile :=
        if s.dev = DevState.faulted ∧ t.work.cat.active.isSome = true then none else s.faultedProfile
      reconsider := s.reconsider || (s.reclaimPaused && (t.work.activeProfile != s.committed.activeProfile ||
        (t.work.permits && !s.committed.permits)))
      events := (s.commit t).events
      nextEvent := (s.commit t).nextEvent
      overflow := (s.commit t).overflow
      poolLow := (s.commit t).poolLow
      poolLowArmed := (s.commit t).poolLowArmed } := by
  unfold State.commit
  exact State.commitEnd_frame _ _

/-- A commit changes the device state from FAULTED to RUNNING at most (R85), and with it the index shown (R177). -/
theorem State.commit_dev (s : State) (t : Task) :
    (s.commit t).dev = s.dev ∧ (s.commit t).faultedProfile = s.faultedProfile ∨
      s.dev = .faulted ∧ (s.commit t).dev = .running ∧ (s.commit t).faultedProfile = none := by
  rw [State.commit_frame]
  by_cases h : s.dev = DevState.faulted ∧ t.work.cat.active.isSome = true
  · simp only [if_pos h]; exact .inr ⟨h.1, trivial, trivial⟩
  · simp only [if_neg h]; exact .inl ⟨trivial, trivial⟩

theorem alarms_or (a b : BitVec 6) : a &&& (a ||| b) = a := by
  ext i hi; simp; tauto

/-- A request completes, or a background operation's effects are committed (R41, R58). -/
theorem State.complete_workFrame {o : Owner} (s : State) (t : Task) (st : Status) (p : List Byte) (h : t.owner = o) :
    WorkFrame o s (s.complete t st p) := by
  have hc := State.commit_frame s t
  have hd := State.commit_dev s t
  unfold State.complete
  split
  · rename_i i r ho
    generalize s.commit t = C at *
    refine ⟨?_, ?_, hd, .inr (.inl ⟨i, r, st, p, h ▸ ho, ?_, ?_, ?_⟩)⟩
    · rw [hc]; rfl
    · rw [hc]; exact alarms_or _ _
    all_goals rw [hc]; rfl
  · generalize s.commit t = C at *
    refine ⟨?_, ?_, hd, .inr (.inr ⟨?_, ?_, ?_⟩)⟩
    · rw [hc]
    · rw [hc]; exact alarms_or _ _
    all_goals rw [hc]

/-- A background operation ends (R58). -/
theorem State.endBackground_workFrame (o : Owner) (s : State) (t : Task) (paused : Bool) :
    WorkFrame o s (s.endBackground t paused) := by
  have hc := State.commit_frame s t
  have hd := State.commit_dev s t
  unfold State.endBackground
  generalize s.commit t = C at *
  refine ⟨?_, ?_, hd, .inr (.inr ⟨?_, ?_, ?_⟩)⟩
  · rw [hc]
  · rw [hc]; exact alarms_or _ _
  all_goals rw [hc]

/-! ### The catalogue writer -/

/-- The task a move of the writer carries on with. -/
def WriterNext.task : WriterNext → Task
  | .operate t _ _ => t
  | .full t => t
  | .done t => t

@[simp] theorem programEntry_owner (t : Task) (e : Entry) (rest : List CatAction) (after : After) :
    (programEntry t e rest after).task.owner = t.owner := by
  unfold programEntry; split
  · rfl
  · split <;> rfl

@[simp] theorem writeHead_owner (segs : List CatSegment) (t : Task) (e : Entry) (rest : List CatAction) (after : After) :
    (writeHead segs t e rest after).task.owner = t.owner := by
  unfold writeHead; split
  · split
    · simp [Task.enterReadOnly, Task.setCat]
    · rfl
  · simp

@[simp] theorem writeNext_owner (segs : List CatSegment) (t : Task) (after : After) (q : List CatAction) :
    (writeNext segs t after q).task.owner = t.owner := by
  induction q with
  | nil => rfl
  | cons a q ih =>
    cases a with
    | write e => simp [writeNext]
    | eraseFormer k =>
      unfold writeNext; split
      · exact ih
      · rfl

@[simp] theorem nextTarget_owner (segs : List CatSegment) (t : Task) (w : CatWork) (targets bad : List Nat) :
    (nextTarget segs t w targets bad).task.owner = t.owner := by
  unfold nextTarget; split
  · rfl
  · split
    · rfl
    · simp [Task.enterReadOnly, Task.setCat]

@[simp] theorem compactionEnds_owner (segs : List CatSegment) (t : Task) (w : CatWork) (c : Compaction) (ok : Bool) :
    (compactionEnds segs t w c ok).task.owner = t.owner := by
  unfold compactionEnds; split
  · rfl
  · split
    · split
      · rfl
      · split <;> rfl
      · simp [Task.setCat]
    · simp [Task.latch]

/-- The writer works for the task it was given. -/
@[simp] theorem writerEnds_owner (segs : List CatSegment) (st : Stamp) (t : Task) (w : CatWork) (ok : Bool) :
    (writerEnds segs st t w ok).task.owner = t.owner := by
  unfold writerEnds; split
  · simp
  · split
    · rfl
    · split <;> simp [Task.wrote, Task.spent, Task.latch, Task.raise, Task.setTables, Task.setCat]
    · split <;> simp [Task.latch]

/-- An entry that cannot be written ends the work (R60). -/
theorem State.entryUnwritten_workFrame {o : Owner} (s : State) (t : Task) (after : After) (h : t.owner = o) :
    WorkFrame o s (s.entryUnwritten t after) := by
  unfold State.entryUnwritten; split
  · exact State.endBackground_workFrame _ _ _ _
  · split <;> exact State.complete_workFrame _ _ _ _ h

/-- Writing an entry begins an operation, or ends the work for want of a position (R60). -/
theorem State.writeEntry_workFrame {o : Owner} (s : State) (t : Task) (e : Entry) (after : After) (h : t.owner = o) :
    WorkFrame o s (s.writeEntry t e after) := by
  have hw := writeHead_owner s.catSegs t e [] after
  unfold State.writeEntry; split
  · exact State.begin_workFrame _ _ _ _ _
  · rename_i heq; rw [heq] at hw; exact State.entryUnwritten_workFrame _ _ _ (hw.trans h)
  · rename_i heq; rw [heq] at hw; exact State.entryUnwritten_workFrame _ _ _ (hw.trans h)

/-- What follows a choice may be said in other words. -/
theorem QueueBegins.mono {segs : List CatSegment} {w : Committed} {e : Entry} {rest : List CatAction} {after : After}
    {p q : Operation → Stage → Prop} (h : ∀ o s, p o s → q o s) (x : QueueBegins segs w e rest after p) :
    QueueBegins segs w e rest after q :=
  ⟨fun k hk => h _ _ (x.1 k hk), fun hr hn k ks hs =>
    ⟨fun he => h _ _ ((x.2 hr hn k ks hs).1 he), fun he => h _ _ ((x.2 hr hn k ks hs).2 he)⟩⟩

/-- The targets are tried in the order of `targetsOf` (R61, R62). -/
theorem compactionTargets_eq (w : Committed) (queue : List CatAction) :
    compactionTargets w.tables.usable queue w.cat.active = targetsOf w queue := by
  unfold compactionTargets targetsOf pendingUnusable
  congr 1
  funext k
  simp

/-- An entry needs a compaction first exactly as `NeedsCompaction` says, outside the read-only condition (R60, R64). -/
theorem needsCompaction_iff (w : Committed) :
    w.cat.needsCompaction = true ↔ w.cat.readOnly = false ∧ NeedsCompaction w := by
  have hd : cataloguePositions - w.cat.fill < 8 ↔ cataloguePositions < w.cat.fill + 8 := by
    simp only [cataloguePositions]; omega
  simp [CatPosition.needsCompaction, NeedsCompaction, hd]

/-- The first operation on a target is what `TargetBegins` says (R61). -/
theorem targetOperation_begins (segs : List CatSegment) (t : Task) (k : Nat) :
    TargetBegins segs t.work k (fun op step => targetOperation segs t k = (op, step)) := by
  refine ⟨fun h => ?_, fun h => ?_⟩ <;> unfold targetOperation
  · rw [if_pos h]; rfl
  · rw [if_neg (by simp [h])]; rfl

/-- An entry with room, and one that brings a compaction, begin as `QueueBegins` says (R60, R61). -/
theorem writeHead_begins (segs : List CatSegment) (t : Task) (e : Entry) (rest : List CatAction) (after : After) :
    QueueBegins segs t.work e rest after
      (fun op st => ∃ w, st = .catalogue w ∧ writeHead segs t e rest after = .operate t op w) := by
  refine ⟨?_, ?_⟩
  · rintro k ⟨h1, h2⟩
    have hn : ¬ t.work.cat.needsCompaction = true := by
      rw [needsCompaction_iff]; rintro ⟨-, h | h⟩
      · rw [h1] at h; cases h
      · omega
    refine ⟨_, rfl, ?_⟩
    unfold writeHead
    rw [if_neg hn]
    simp only [programEntry, h1]
    rw [if_pos (by simp only [cataloguePositions] at *; omega)]
    rfl
  · intro hr hn k ks hs
    have hw : writeHead segs t e rest after = .operate t (targetOperation segs t k).1
        ⟨.write e :: rest, some ⟨k :: ks, [], (targetOperation segs t k).2⟩, after⟩ := by
      unfold writeHead
      rw [if_pos ((needsCompaction_iff _).mpr ⟨hr, hn⟩), compactionTargets_eq, hs]
    have ht := targetOperation_begins segs t k
    refine ⟨fun he => ⟨_, rfl, ?_⟩, fun he => ⟨_, rfl, ?_⟩⟩ <;> rw [hw]
    · rw [ht.1 he]
    · rw [ht.2 he]

/-- A task in the read-only condition already enters it without a change. -/
theorem Task.enterReadOnly_of_readOnly {t : Task} (h : t.work.cat.readOnly = true) : t.enterReadOnly = t := by
  obtain ⟨o, ⟨tb, ⟨c1, c2, c3, c4⟩, sm, ps, ap, fu⟩, ev, al⟩ := t
  cases h
  rfl

/-- An entry for which no compaction can be had takes a position that remains, in the read-only condition (R63). -/
theorem writeHead_noTarget (segs : List CatSegment) (t : Task) (e : Entry) (rest : List CatAction) (after : After)
    (hn : NeedsCompaction t.work) (ht : targetsOf t.work (.write e :: rest) = []) :
    writeHead segs t e rest after = programEntry t.enterReadOnly e rest after := by
  unfold writeHead
  split
  · rw [compactionTargets_eq, ht]
  · rename_i h
    rw [Task.enterReadOnly_of_readOnly]
    rw [needsCompaction_iff] at h
    cases hr : t.work.cat.readOnly
    · exact absurd ⟨hr, hn⟩ h
    · rfl

/-- With no position left there is no program (R60). -/
theorem programEntry_full (t : Task) (e : Entry) (rest : List CatAction) (after : After)
    (h : t.work.cat.active = none ∨ cataloguePositions ≤ t.work.cat.fill) : programEntry t e rest after = .full t := by
  unfold programEntry
  split
  · rfl
  · rename_i k hk
    rw [if_neg]
    rcases h with h | h
    · rw [h] at hk; cases hk
    · exact Nat.not_lt.mpr h

/-- An entry with nothing behind it begins as `EntryBegins` says (R60, R61). -/
theorem State.writeEntry_entryBegins (s : State) (t : Task) (e : Entry) (after : After) :
    EntryBegins s.catSegs t.work e after (fun op st => s.writeEntry t e after = s.begin t op st) :=
  (writeHead_begins s.catSegs t e [] after).mono (fun o st ⟨w, h1, h2⟩ => by unfold State.writeEntry; rw [h2, h1])

/-! ### Appending -/

theorem State.startBody_workFrame (o : Owner) (s : State) (t : Task) (a : AppendData) (seg : Nat) :
    WorkFrame o s (s.startBody t a seg) := State.begin_workFrame _ _ _ _ _

theorem State.appendFails_workFrame {o : Owner} (s : State) (t : Task) (a : AppendData) (st : Status)
    (h : t.owner = o) : WorkFrame o s (s.appendFails t a st) := State.complete_workFrame _ _ _ _ h

theorem State.evict_workFrame {o : Owner} (s : State) (t : Task) (a : AppendData) (h : t.owner = o) :
    WorkFrame o s (s.evict t a) := by
  unfold State.evict; simp only; split
  · exact State.writeEntry_workFrame _ _ _ _ h
  · exact State.appendFails_workFrame _ _ _ _ h

theorem State.allocate_workFrame {o : Owner} (s : State) (t : Task) (a : AppendData) (h : t.owner = o) :
    WorkFrame o s (s.allocate t a) := by
  unfold State.allocate; simp only; split
  · exact State.begin_workFrame _ _ _ _ _
  · split
    · exact State.begin_workFrame _ _ _ _ _
    · split
      · exact State.evict_workFrame _ _ _ h
      · exact State.complete_workFrame _ _ _ _ h

theorem State.newSegment_workFrame {o : Owner} (s : State) (t : Task) (a : AppendData) (h : t.owner = o) :
    WorkFrame o s (s.newSegment t a) := by
  unfold State.newSegment; simp only; split
  · exact State.allocate_workFrame _ _ _ h
  · split
    · exact State.evict_workFrame _ _ _ h
    · exact State.appendFails_workFrame _ _ _ _ h

theorem State.workAppend_workFrame {o : Owner} (s : State) (t : Task) (id : Nat) (marker : Bool) (p : List Byte)
    (h : t.owner = o) : WorkFrame o s (s.workAppend t id marker p) := by
  unfold State.workAppend; simp only; split
  · exact State.complete_workFrame _ _ _ _ h
  · split
    · exact State.startBody_workFrame _ _ _ _ _
    · exact State.newSegment_workFrame _ _ _ h

/-! ### Starting a request -/

theorem State.formatTarget_workFrame {o : Owner} (s : State) (t : Task) (targets bad : List Nat) (h : t.owner = o) :
    WorkFrame o s (s.formatTarget t targets bad) := by
  unfold State.formatTarget; split
  · exact State.complete_workFrame _ _ _ _ h
  · exact State.begin_workFrame _ _ _ _ _

theorem State.guardFails_workFrame {o : Owner} (s : State) (t : Task) (h : t.owner = o) :
    WorkFrame o s (s.guardFails t) := State.complete_workFrame _ _ _ _ h

theorem State.refuse_workFrame {o : Owner} (s : State) (t : Task) (st : Status) (h : t.owner = o) :
    WorkFrame o s (s.refuse t st) := State.complete_workFrame _ _ _ _ h

/-- The work of a modifying request begins an operation or completes it. -/
theorem State.startWork_workFrame {o : Owner} (s : State) (t : Task) (r : Request) (h : t.owner = o) :
    WorkFrame o s (s.startWork t r) := by
  unfold State.startWork
  split <;> first
    | exact State.refuse_workFrame _ _ _ h
    | exact State.begin_workFrame _ _ _ _ _
    | (split <;> first
        | exact State.refuse_workFrame _ _ _ h
        | exact State.workAppend_workFrame _ _ _ _ _ h
        | exact State.writeEntry_workFrame _ _ _ _ h
        | exact State.formatTarget_workFrame _ _ _ _ h
        | exact State.begin_workFrame _ _ _ _ _
        | (unfold State.workTrim; simp only; split
           · exact State.complete_workFrame _ _ _ _ h
           · exact State.writeEntry_workFrame _ _ _ _ h))
    | (unfold State.workFixGuard; split
       · exact State.begin_workFrame _ _ _ _ _
       · split
         · exact State.begin_workFrame _ _ _ _ _
         · exact State.guardFails_workFrame _ _ h)

theorem State.afterRefresh_workFrame {o : Owner} (s : State) (t : Task) (r : Request) (h : t.owner = o) :
    WorkFrame o s (s.afterRefresh t r) := by
  unfold State.afterRefresh; split
  · exact State.startWork_workFrame _ _ _ h
  · exact State.refuse_workFrame _ _ _ h

theorem State.stepsFiveSix_workFrame {o : Owner} (s : State) (t : Task) (r : Request) (env : Env) (h : t.owner = o) :
    WorkFrame o s (s.stepsFiveSix t r env) := by
  unfold State.stepsFiveSix; split
  · exact State.refuse_workFrame _ _ _ h
  · split
    · split
      · exact State.begin_workFrame _ _ _ _ _
      · exact State.afterRefresh_workFrame _ _ _ h
      · exact State.afterRefresh_workFrame _ _ _ h
    · exact State.afterRefresh_workFrame _ _ _ h

/-- With a sample that is not due, a profile that permits writes and no read-only condition, steps 5 and 6 pass. -/
theorem State.stepsFiveSix_of_writable (s : State) (t : Task) (r : Request) (env : Env) (h : Writable t.work) :
    s.stepsFiveSix t r env = s.startWork t r := by
  obtain ⟨w1, w2, w3⟩ := h
  simp [State.stepsFiveSix, w1, w2, w3, State.afterRefresh]

/-- Starting a request begins an operation or completes the request, whatever the kind and parameters (R37, R39). -/
theorem State.startKind_workFrame {o : Owner} (s : State) (t : Task) (r : Request) (env : Env) (h : t.owner = o) :
    WorkFrame o s (s.startKind t r env) := by
  have c := fun (t' : Task) st p (h' : t'.owner = o) => State.complete_workFrame (o := o) s t' st p h'
  unfold State.startKind
  split
  · unfold State.startRead; repeat' (first | exact c _ _ _ h | split | simp only)
  · unfold State.startReadNext; repeat' (first | exact c _ _ _ h | split | simp only)
  · unfold State.startSeek; repeat' (first | exact c _ _ _ h | split | simp only)
  · unfold State.startSample; repeat' (first | exact c _ _ _ h | exact State.begin_workFrame _ _ _ _ _ | split)
  · unfold State.startSetTemperature; repeat' (first | exact c _ _ _ h | split)
  · unfold State.startWriteProfile; repeat' (first | exact c _ _ _ h | split)
  all_goals first
    | exact c _ _ _ h
    | ((first
        | unfold State.startAppend
        | unfold State.startTrim
        | unfold State.startCreate
        | unfold State.startDelete
        | unfold State.startSeal
        | unfold State.startSetHold
        | unfold State.startClearHold
        | unfold State.startFormat
        | unfold State.startOption
        | unfold State.startCommit
        | unfold State.startLabel
        | unfold State.startFixGuard)
       repeat' (first | exact c _ _ _ h | exact State.stepsFiveSix_workFrame _ _ _ _ h | split | simp only))

/-! ### Going on when an operation ends -/

/-- Nothing happens. -/
theorem WorkFrame.refl (o : Owner) (s : State) : WorkFrame o s s :=
  ⟨rfl, by simp, .inl ⟨rfl, rfl⟩, .inl ⟨rfl, rfl, rfl, rfl, rfl⟩⟩

theorem State.afterWriter_workFrame {o : Owner} (s : State) (t : Task) (after : After) (h : t.owner = o) :
    WorkFrame o s (s.afterWriter t after) := by
  unfold State.afterWriter
  split
  · exact State.complete_workFrame _ _ _ _ h
  · exact State.complete_workFrame _ _ _ _ h
  · exact State.complete_workFrame _ _ _ _ h
  · exact State.allocate_workFrame _ _ _ h
  · split
    · exact State.startBody_workFrame _ _ _ _ _
    · exact State.appendFails_workFrame _ _ _ _ h
  · exact State.complete_workFrame _ _ _ _ h
  · exact State.newSegment_workFrame _ _ _ h
  · exact State.appendFails_workFrame _ _ _ _ h
  · exact State.endBackground_workFrame _ _ _ _

theorem State.runWriter_workFrame {o : Owner} (s : State) (after : After) (n : WriterNext) (h : n.task.owner = o) :
    WorkFrame o s (s.runWriter after n) := by
  unfold State.runWriter
  split
  · exact State.begin_workFrame _ _ _ _ _
  · exact State.entryUnwritten_workFrame _ _ _ h
  · exact State.afterWriter_workFrame _ _ _ h

/-- Once an operation of the array or of the fuse store has ended, the work goes on or ends (R39, R60, R99). -/
theorem State.stageEnds_workFrame (s : State) (j : Job) (ok tripped : Bool) :
    WorkFrame j.task.owner s (s.stageEnds j ok tripped) := by
  have c := fun (t' : Task) st p (h' : t'.owner = j.task.owner) => State.complete_workFrame s t' st p h'
  have w := fun (t' : Task) e after (h' : t'.owner = j.task.owner) => State.writeEntry_workFrame s t' e after h'
  have b := fun (t' : Task) op st => State.begin_workFrame j.task.owner s t' op st
  have hl : ∀ k, (j.task.latchUnless k).owner = j.task.owner := by
    intro k; unfold Task.latchUnless; split <;> rfl
  unfold State.stageEnds
  split
  · exact State.runWriter_workFrame _ _ _ (writerEnds_owner _ _ _ _ _)
  · exact w _ _ _ (hl _)
  · unfold State.descriptorEnds; simp only; split
    · exact w _ _ _ rfl
    · exact w _ _ _ rfl
  · exact w _ _ _ (hl _)
  · unfold State.bodyEnds; simp only; split
    · exact b _ _ _
    · exact w _ _ _ rfl
  · unfold State.markEnds; simp only; split
    · exact c _ _ _ rfl
    · split <;> exact w _ _ _ rfl
  · unfold State.formatEnds; split
    · exact c _ _ _ rfl
    · split
      · split
        · exact b _ _ _
        · split <;> exact b _ _ _
        · unfold State.formatDone; simp only; exact c _ _ _ (by split <;> rfl)
      · exact State.formatTarget_workFrame _ _ _ _ rfl
  · unfold State.guardAttemptEnds; split
    · exact b _ _ _
    · exact State.guardFails_workFrame _ _ rfl
  · unfold State.guardFixEnds; split
    · split
      · exact c _ _ _ rfl
      · exact State.guardFails_workFrame _ _ rfl
    · split
      · exact c _ _ _ rfl
      · simp only; split
        · exact b _ _ _
        · exact State.guardFails_workFrame _ _ rfl
  · unfold State.bankMarkerEnds; split
    · exact b _ _ _
    · exact c _ _ _ rfl
  · unfold State.bankContentsEnds; simp only; split <;> exact c _ _ _ rfl
  · unfold State.labelMarkerEnds; split
    · exact b _ _ _
    · exact c _ _ _ rfl
  · unfold State.labelContentsEnds; split <;> exact c _ _ _ rfl
  all_goals exact WorkFrame.refl _ _

/-- Once a sensor attempt has ended, the work goes on or ends (R114, R128). -/
theorem State.sensorEnds_workFrame (s : State) (j : Job) (e : AttemptEnd) (env : Env) :
    WorkFrame j.task.owner s (s.sensorEnds j e env) := by
  unfold State.sensorEnds
  simp only
  split
  · split <;> exact State.complete_workFrame _ _ _ _ rfl
  · unfold State.backgroundRefreshed; split
    · split
      · exact State.begin_workFrame _ _ _ _ _
      · exact State.endBackground_workFrame _ _ _ _
    · exact State.endBackground_workFrame _ _ _ _
  · split
    · exact State.afterRefresh_workFrame _ _ _ rfl
    · exact State.endBackground_workFrame _ _ _ _

/-- A background operation begins, or ends at once in a pause (R58). -/
theorem State.startBackground_workFrame (s : State) (refresh : Bool) (env : Env) :
    WorkFrame .background s (s.startBackground refresh env) := by
  have h : ∀ t : Task, WorkFrame .background s (s.backgroundRefreshed t) := by
    intro t
    unfold State.backgroundRefreshed; split
    · split
      · exact State.begin_workFrame _ _ _ _ _
      · exact State.endBackground_workFrame _ _ _ _
    · exact State.endBackground_workFrame _ _ _ _
  unfold State.startBackground
  simp only
  split
  · split
    · exact State.begin_workFrame _ _ _ _ _
    · exact h _
    · exact h _
  · exact h _

/-! ### What an operation leaves -/

/-- An operation lands in the array or the fuse store and nowhere else (R47, R145). -/
theorem State.land_frame (s : State) (op : Operation) (rb : ReadBack) (tripped : Bool) :
    s.land op rb tripped = { s with
      flash := (s.land op rb tripped).flash
      catSegs := (s.land op rb tripped).catSegs
      fuses := (s.land op rb tripped).fuses } := by
  cases op <;> rfl

/-- When an operation ends, its target changes as `land` says, and its owner's work or the drain goes on (R47,
R168). -/
theorem State.operationEnds_cases (s : State) (j : Job) (rb : ReadBack) (tripped : Bool) :
    (s.dev = .resetting ∧ ∃ job, s.operationEnds j rb tripped = { s.land j.op rb tripped with job := job }) ∨
      s.dev ≠ .resetting ∧ WorkFrame j.task.owner (s.land j.op rb tripped) (s.operationEnds j rb tripped) := by
  have hd : (s.land j.op rb tripped).dev = s.dev := by rw [State.land_frame]
  by_cases h : s.dev = .resetting
  · refine .inl ⟨h, ?_⟩
    have h' : (s.land j.op rb tripped).dev = .resetting := hd.trans h
    unfold State.operationEnds
    simp only
    rw [if_pos h']
    unfold State.drainEnds
    split
    · split
      · exact ⟨_, rfl⟩
      · exact ⟨_, rfl⟩
    · exact ⟨_, rfl⟩
  · have h' : ¬ (s.land j.op rb tripped).dev = .resetting := by rw [hd]; exact h
    refine .inr ⟨h, ?_⟩
    unfold State.operationEnds
    simp only
    rw [if_neg h']
    exact State.stageEnds_workFrame _ _ _ _

/-! ### The terms of Sys2Proof/Safety.lean -/

/-- What an operation or an attempt on the sensor bus may have left before its owner goes on, GUARD# as it was looked at
among it (R47, R115, R145). -/
abbrev LeftBy (s u : State) : Prop :=
  u = { s with
    guardHigh := u.guardHigh
    flash := u.flash
    catSegs := u.catSegs
    fuses := u.fuses
    sensorLog := u.sensorLog }

/-- All but the array and the fuse store is as it was: what an operation of either leaves (R47, R145). -/
abbrev ArraysLeft (s u : State) : Prop := u = { s with flash := u.flash, catSegs := u.catSegs, fuses := u.fuses }

/-- What an operation of the array or the fuse store has left is among what `LeftBy` allows. -/
theorem ArraysLeft.leftBy {s u : State} (hu : ArraysLeft s u) : LeftBy s u := by
  unfold LeftBy
  rw [hu]

/-- An operation leaves what it lands and nothing else. -/
theorem State.land_leftBy (s : State) (op : Operation) (rb : ReadBack) (tripped : Bool) :
    LeftBy s (s.land op rb tripped) := by cases op <;> rfl

/-- Committing in RUNNING is what `Commits` says (R36, R41). -/
theorem State.commit_commits {s u : State} (hu : LeftBy s u) (t : Task) (hd : s.dev = .running)
    {v : State} (hv : v = { u.commit t with
      contexts := v.contexts, nextCompletion := v.nextCompletion, reclaimPaused := v.reclaimPaused,
      reconsider := v.reconsider, alertLow := v.alertLow }) :
    Commits s v t.work t.events t.alarms := by
  have hf := State.commit_frame u t
  have hud : u.dev = .running := by rw [hu]; exact hd
  have hpool : ∀ x : State, x.dev = .running → (if (x.recordAll t.events).dev = .faulted then x.recordAll t.events
      else (x.recordAll t.events).comparePool) = (x.recordAll t.events).comparePool := by
    intro x hx
    have : (x.recordAll t.events).dev = .running := by rw [State.recordAll_frame]; exact hx
    rw [this]; rfl
  have hc : u.commit t = (({ u with
      committed := t.work
      job := none
      alarms := u.alarms ||| t.alarms
      tickPeriod :=
        if t.work.tables.settings.tickPeriod = u.committed.tables.settings.tickPeriod then u.tickPeriod
        else t.work.tables.settings.tickPeriod.toNat
      dev := if u.dev = DevState.faulted ∧ t.work.cat.active.isSome = true then .running else u.dev
      faultedProfile :=
        if u.dev = DevState.faulted ∧ t.work.cat.active.isSome = true then none else u.faultedProfile
      reconsider := u.reconsider ||
        (u.reclaimPaused && (t.work.activeProfile != u.committed.activeProfile ||
          (t.work.permits && !u.committed.permits))) } : State).recordAll t.events).comparePool := by
    unfold State.commit
    exact hpool _ (by simp [hud])
  have hcong := State.recordAll_comparePool_congr (u := { s with committed := t.work }) (s := { u with
      committed := t.work
      job := none
      alarms := u.alarms ||| t.alarms
      tickPeriod :=
        if t.work.tables.settings.tickPeriod = u.committed.tables.settings.tickPeriod then u.tickPeriod
        else t.work.tables.settings.tickPeriod.toNat
      dev := if u.dev = DevState.faulted ∧ t.work.cat.active.isSome = true then .running else u.dev
      faultedProfile :=
        if u.dev = DevState.faulted ∧ t.work.cat.active.isSome = true then none else u.faultedProfile
      reconsider := u.reconsider ||
        (u.reclaimPaused && (t.work.activeProfile != u.committed.activeProfile ||
          (t.work.permits && !u.committed.permits))) }) t.events (by rw [hu]) (by rw [hu]) (by rw [hu]) (by rfl)
    (by rw [hu]) (by rw [hu]) (by rw [hu])
  rw [← hc] at hcong
  obtain ⟨q1, q2, q3, q4, q5⟩ := hcong
  unfold Commits
  simp only
  rw [← q1, ← q2, ← q3, ← q4, ← q5, hv, hf, hu]
  simp [hd]

/-- What committing a task does in FAULTED while there is no catalogue (R36, R41; log 30). -/
theorem State.commit_faulted (s : State) (t : Task) (hd : s.dev = .faulted) (ha : t.work.cat.active = none) :
    s.commit t = ({ s with
      committed := t.work
      job := none
      alarms := s.alarms ||| t.alarms
      tickPeriod :=
        if t.work.tables.settings.tickPeriod = s.committed.tables.settings.tickPeriod then s.tickPeriod
        else t.work.tables.settings.tickPeriod.toNat
      reconsider := s.reconsider || (s.reclaimPaused &&
        (t.work.activeProfile != s.committed.activeProfile || (t.work.permits && !s.committed.permits))) }).recordAll
      t.events := by
  have hr : ∀ (u : State) (es : List Raised), (u.recordAll es).dev = u.dev := by
    intro u es; rw [State.recordAll_frame]
  simp only [State.commit, ha, hd]
  rw [hr]
  simp

/-- Committing a task that has built a catalogue in FAULTED is committing it in RUNNING (R85). -/
theorem State.commit_leavesFaulted (s : State) (t : Task) (hd : s.dev = .faulted) (ha : t.work.cat.active ≠ none) :
    s.commit t = { s with dev := .running, faultedProfile := none }.commit t := by
  have h : t.work.cat.active.isSome = true := Option.isSome_iff_ne_none.mpr ha
  simp [State.commit, h, hd]

/-- The executing request completes as `Completes` says (R25, R41). -/
theorem State.complete_completes {s u : State} (hu : LeftBy s u) {t : Task} {i : Nat} {r : Request}
    (ho : t.owner = .request i r) (hd : s.dev = .running) (st : Status) (p : List Byte) :
    Completes s (u.complete t st p).settle i r st p t.work t.events t.alarms := by
  have he : u.complete t st p = (u.commit t).finish i r st p := by simp [State.complete, ho]
  have hf := State.commit_frame u t
  refine ⟨State.commit_commits hu t hd ?_, ?_, ?_, ?_, ?_⟩
  · rw [he]; rfl
  all_goals
    rw [he, State.settle, State.finish]
    rw [hf, hu]

/-- A background operation ends as `BackgroundEnds` says (R58). -/
theorem State.endBackground_ends {s u : State} (hu : LeftBy s u) (t : Task) (hd : s.dev = .running) (paused : Bool) :
    BackgroundEnds s (u.endBackground t paused).settle paused t.work t.events t.alarms := by
  have hf := State.commit_frame u t
  refine ⟨State.commit_commits hu t hd ?_, ?_, ?_, rfl, rfl⟩
  · rfl
  all_goals
    rw [State.settle, State.endBackground]
    rw [hf, hu]

/-- An operation begins as `GoesOn` says (R36, R49). -/
theorem State.begin_goesOn {s u : State} (hu : ArraysLeft s u)
    (t : Task) (op : Operation) (stage : Stage) : GoesOn s (u.begin t op stage).settle t op stage := by
  unfold GoesOn State.begin State.settle
  rw [hu]

/-- An entry begins as `EntryBegins` says (R60, R61). -/
theorem State.writeEntry_begins {s u : State} (hu : ArraysLeft s u)
    (t : Task) (e : Entry) (after : After) :
    EntryBegins u.catSegs t.work e after (GoesOn s (u.writeEntry t e after).settle t) :=
  (State.writeEntry_entryBegins u t e after).mono (fun o st h => by rw [h]; exact State.begin_goesOn hu t o st)

/-- The lowest-worn FREE segment, the lowest index among equals (R53). -/
theorem lowestFree_spec (es : List SegEntry) : ∀ (k : Nat) (best : Option (Nat × Nat)),
    (lowestFree es k best = none ↔ best = none ∧ ∀ e ∈ es, e.state ≠ .free) ∧
    ∀ i n, lowestFree es k best = some (i, n) →
      (best = some (i, n) ∨ ∃ j e, i = k + j ∧ es[j]? = some e ∧ e.state = .free ∧ e.eraseCount = n) ∧
      (∀ b, best = some b → n < b.2 ∨ (n = b.2 ∧ (i = b.1 ))) ∧
      ∀ j e, es[j]? = some e → e.state = .free →
        n < e.eraseCount ∨ n = e.eraseCount ∧ (best = some (i, n) ∨ i ≤ k + j) := by
  induction es with
  | nil =>
    intro k best
    refine ⟨by simp [lowestFree], ?_⟩
    intro i n h
    simp only [lowestFree] at h
    exact ⟨.inl h, by intro b hb; rw [h] at hb; cases hb; simp, by simp⟩
  | cons e es ih =>
    intro k best
    generalize hb' : (if e.state = .free then
        match best with
        | none => some (k, e.eraseCount)
        | some (j, n) => if e.eraseCount < n then some (k, e.eraseCount) else some (j, n)
      else best) = best'
    have hl : lowestFree (e :: es) k best = lowestFree es (k + 1) best' := by rw [← hb']; rfl
    obtain ⟨h1, h2⟩ := ih (k + 1) best'
    rw [hl]
    constructor
    · rw [h1, ← hb']
      by_cases hf : e.state = .free
      · rcases best with _ | ⟨j, m⟩
        · simp [hf]
        · simp only [hf, if_true]; split <;> simp
      · simp [hf]
    · intro i n h
      obtain ⟨a, b, c⟩ := h2 i n h
      by_cases hf : e.state = .free
      · rcases best with _ | ⟨j, m⟩
        · simp only [hf, if_true] at hb'; subst hb'
          refine ⟨?_, by simp, ?_⟩
          · rcases a with a | ⟨j, x, rfl, hx, hy⟩
            · cases a; exact .inr ⟨0, e, rfl, rfl, hf, rfl⟩
            · exact .inr ⟨j + 1, x, by omega, by simpa using hx, hy⟩
          · intro j x hx hs
            rcases j with _ | j
            · simp at hx; subst hx
              rcases b _ rfl with q | ⟨q, q'⟩
              · exact .inl q
              · simp at q q'; exact .inr ⟨q, .inr (by omega)⟩
            · rcases c j x (by simpa using hx) hs with q | ⟨q, q' | q'⟩
              · exact .inl q
              · cases q'; exact .inr ⟨q, .inr (by omega)⟩
              · exact .inr ⟨q, .inr (by omega)⟩
        · simp only [hf, if_true] at hb'
          by_cases hlt : e.eraseCount < m
          · simp only [hlt, if_true] at hb'; subst hb'
            refine ⟨?_, ?_, ?_⟩
            · rcases a with a | ⟨j, x, rfl, hx, hy⟩
              · cases a; exact .inr ⟨0, e, rfl, rfl, hf, rfl⟩
              · exact .inr ⟨j + 1, x, by omega, by simpa using hx, hy⟩
            · intro q hq; cases hq
              rcases b _ rfl with q | ⟨q, q'⟩
              · left; simp at q ⊢; omega
              · left; simp at q ⊢; omega
            · intro j x hx hs
              rcases j with _ | j
              · simp at hx; subst hx
                rcases b _ rfl with q | ⟨q, q'⟩
                · exact .inl q
                · simp at q q'; exact .inr ⟨q, .inr (by omega)⟩
              · rcases c j x (by simpa using hx) hs with q | ⟨q, q' | q'⟩
                · exact .inl q
                · cases q'; exact .inr ⟨q, .inr (by omega)⟩
                · exact .inr ⟨q, .inr (by omega)⟩
          · simp only [hlt, if_false] at hb'; subst hb'
            refine ⟨?_, b, ?_⟩
            · rcases a with a | ⟨j, x, rfl, hx, hy⟩
              · exact .inl a
              · exact .inr ⟨j + 1, x, by omega, by simpa using hx, hy⟩
            · intro j' x hx hs
              rcases j' with _ | j'
              · simp at hx; subst hx
                rcases b _ rfl with q | ⟨q, q'⟩
                · left; simp at q; omega
                · simp at q q'
                  by_cases hh : n < e.eraseCount
                  · exact .inl hh
                  · exact .inr ⟨by omega, .inl (by rw [q, q'])⟩
              · rcases c j' x (by simpa using hx) hs with q | ⟨q, q' | q'⟩
                · exact .inl q
                · exact .inr ⟨q, .inl q'⟩
                · exact .inr ⟨q, .inr (by omega)⟩
      · simp only [hf, if_false] at hb'; subst hb'
        refine ⟨?_, b, ?_⟩
        · rcases a with a | ⟨j, x, rfl, hx, hy⟩
          · exact .inl a
          · exact .inr ⟨j + 1, x, by omega, by simpa using hx, hy⟩
        · intro j' x hx hs
          rcases j' with _ | j'
          · simp at hx; subst hx; exact absurd hs hf
          · rcases c j' x (by simpa using hx) hs with q | ⟨q, q' | q'⟩
            · exact .inl q
            · exact .inr ⟨q, .inl q'⟩
            · exact .inr ⟨q, .inr (by omega)⟩

/-- The data segments of the table, by index. -/
theorem Tables.dataSegs_getElem? (t : Tables) (j : Nat) : (t.segs.drop firstData)[j]? = t.segs[4 + j]? := by
  rw [List.getElem?_drop]; rfl

/-- A FREE data segment in the list allocation searches (R53). -/
theorem FreeAt_iff (t : Tables) (i n : Nat) : FreeAt t i n ↔
    ∃ j e, i = firstData + j ∧ (t.segs.drop firstData)[j]? = some e ∧ e.state = .free ∧ e.eraseCount = n := by
  constructor
  · rintro ⟨h, e, h1, h2, h3⟩
    refine ⟨i - 4, e, by simp [firstData] at *; omega, ?_, h2, h3⟩
    rw [Tables.dataSegs_getElem?]; rw [show 4 + (i - 4) = i by simp [firstData] at h; omega]; exact h1
  · rintro ⟨j, e, rfl, h1, h2, h3⟩
    rw [Tables.dataSegs_getElem?] at h1
    exact ⟨by omega, e, h1, h2, h3⟩

/-- What allocation chooses (R53). -/
theorem Tables.chooseFree_spec (t : Tables) :
    (t.chooseFree = none ↔ ∀ i n, ¬ FreeAt t i n) ∧
    ∀ i n, FreeAt t i n → (∀ j m, FreeAt t j m → n < m ∨ n = m ∧ i ≤ j) → t.chooseFree = some i := by
  have h := lowestFree_spec (t.segs.drop firstData) firstData none
  have hn : t.chooseFree = none ↔ ∀ i n, ¬ FreeAt t i n := by
    unfold Tables.chooseFree
    rw [Option.map_eq_none_iff, h.1]
    constructor
    · rintro ⟨_, hh⟩ i n hf
      obtain ⟨j, e, _, h1, h2, _⟩ := (FreeAt_iff t i n).mp hf
      exact hh e (List.mem_of_getElem? h1) h2
    · intro hh
      refine ⟨rfl, fun e he hf => ?_⟩
      obtain ⟨j, hj⟩ := List.getElem?_of_mem he
      exact hh (firstData + j) e.eraseCount ((FreeAt_iff _ _ _).mpr ⟨j, e, rfl, hj, hf, rfl⟩)
  refine ⟨hn, fun i n hf hmin => ?_⟩
  cases hl : lowestFree (t.segs.drop firstData) firstData none with
  | none =>
    have : t.chooseFree = none := by unfold Tables.chooseFree; rw [hl]; rfl
    exact absurd hf (hn.mp this i n)
  | some p =>
    obtain ⟨i', n'⟩ := p
    obtain ⟨a, _, c⟩ := h.2 i' n' hl
    rcases a with a | ⟨j', e', rfl, h1, h2, rfl⟩
    · cases a
    · have hf' := (FreeAt_iff t _ _).mpr ⟨j', e', rfl, h1, h2, rfl⟩
      obtain ⟨j, e, hij, g1, g2, g3⟩ := (FreeAt_iff t i n).mp hf
      have q := c j e g1 g2
      have q' := hmin _ _ hf'
      unfold Tables.chooseFree
      rw [hl]
      simp only [Option.map_some, Option.some.injEq]
      rcases q with q | ⟨q, q2 | q2⟩
      · omega
      · cases q2
      · omega

/-- An eviction is what `Evicts` says (R95). -/
theorem State.evict_evicts (u : State) (t : Task) (a : AppendData) :
    Evicts t.work a (fun e after => u.evict t a = u.writeEntry t e after) := by
  intro o p rest hs
  unfold State.evict Task.streamOf
  simp only
  rw [show (t.work.tables.stream a.id).segs = o :: p :: rest from hs]

/-- Allocation is what `Allocates` says (R52, R53, R56, R96). -/
theorem State.allocate_allocates (u : State) (t : Task) (a : AppendData) :
    Allocates t.work a u.stamp (fun op st => u.allocate t a = u.begin t op st)
      (fun e after => u.allocate t a = u.writeEntry t e after)
      (fun st evs => u.allocate t a = u.complete (t.raise evs) st (unrecorded t.work a)) := by
  obtain ⟨h1, h2⟩ := t.work.tables.chooseFree_spec
  refine ⟨?_, ?_⟩
  · intro i n hf hm
    unfold State.allocate Task.streamOf
    simp only
    rw [h2 i n hf hm]
    rfl
  · intro hno
    have hc := h1.mpr hno
    refine ⟨?_, ?_, ?_⟩
    · intro d rest hd
      unfold State.allocate Task.streamOf
      simp only
      rw [hc, hd]
      rfl
    · intro hd hr hh o p rest hs
      have : u.allocate t a = u.evict t a := by
        unfold State.allocate Task.streamOf
        simp only
        rw [hc, hd]
        simp only
        rw [show (t.work.tables.stream a.id).segs = o :: p :: rest from hs]
        simp [Stream.mayEvict, hr, hh]
      rw [this]
      exact State.evict_evicts u t a o p rest hs
    · intro hd hne
      unfold State.allocate Task.streamOf
      simp only
      rw [hc, hd]
      simp only
      rw [if_neg]
      · rfl
      · intro hh
        simp only [Stream.mayEvict, Bool.and_eq_true, decide_eq_true_eq, beq_iff_eq, Bool.not_eq_true'] at hh
        exact hne ⟨hh.1.1, hh.1.2, hh.2⟩

/-- The quota test and what follows it are what `NeedsSegment` says (R94). -/
theorem State.newSegment_needs (u : State) (t : Task) (a : AppendData) :
    NeedsSegment t.work a u.stamp (fun op st => u.newSegment t a = u.begin t op st)
      (fun e after => u.newSegment t a = u.writeEntry t e after)
      (fun st evs => u.newSegment t a = u.complete (t.raise evs) st (unrecorded t.work a)) := by
  refine ⟨?_, ?_, ?_⟩
  · intro h
    have : u.newSegment t a = u.allocate t a := by
      unfold State.newSegment Task.streamOf; simp only; rw [if_pos h]
    rw [this]; exact State.allocate_allocates u t a
  · intro h1 h2 h3 h4
    have : u.newSegment t a = u.evict t a := by
      unfold State.newSegment Task.streamOf; simp only
      rw [if_neg (by omega), if_pos (by simp [Stream.mayEvict, h3, h4])]
    rw [this]; exact State.evict_evicts u t a
  · intro h1 h2 h3
    unfold State.newSegment Task.streamOf; simp only; rw [if_neg (by omega), if_neg]
    · simp [State.appendFails, Task.raise]; rfl
    · intro hh
      simp only [Stream.mayEvict, Bool.and_eq_true, beq_iff_eq, Bool.not_eq_true'] at hh
      exact h3 hh

/-! What follows a choice may be said in other words. -/

theorem EntryBegins.mono {segs : List CatSegment} {w : Committed} {e : Entry} {after : After}
    {p q : Operation → Stage → Prop} (h : ∀ o s, p o s → q o s) (x : EntryBegins segs w e after p) :
    EntryBegins segs w e after q := QueueBegins.mono h x

theorem Evicts.mono {w : Committed} {a : AppendData} {p q : Entry → After → Prop}
    (h : ∀ e n, p e n → q e n) (x : Evicts w a p) : Evicts w a q :=
  fun o p' r hs => h _ _ (x o p' r hs)

theorem Allocates.mono {w : Committed} {a : AppendData} {now : Stamp} {p q : Operation → Stage → Prop}
    {m n : Entry → After → Prop} {f g : Status → List Raised → Prop} (h : ∀ o s, p o s → q o s)
    (h' : ∀ e k, m e k → n e k) (h'' : ∀ o s, f o s → g o s) (x : Allocates w a now p m f) : Allocates w a now q n g :=
  ⟨fun i n c d => h _ _ (x.1 i n c d), fun hn =>
    ⟨fun d r hd => h _ _ ((x.2 hn).1 d r hd), fun c d e => ((x.2 hn).2.1 c d e).mono h',
      fun c d => h'' _ _ ((x.2 hn).2.2 c d)⟩⟩

theorem NeedsSegment.mono {w : Committed} {a : AppendData} {now : Stamp} {p q : Operation → Stage → Prop}
    {m n : Entry → After → Prop} {f g : Status → List Raised → Prop} (h : ∀ o s, p o s → q o s)
    (h' : ∀ e k, m e k → n e k) (h'' : ∀ o s, f o s → g o s) (x : NeedsSegment w a now p m f) :
    NeedsSegment w a now q n g :=
  ⟨fun hh => (x.1 hh).mono h h' h'', fun c d e i => (x.2.1 c d e i).mono h', fun c d e => h'' _ _ (x.2.2 c d e)⟩

/-- Recording into an empty list keeps the first sixteen and counts the rest (R181). -/
theorem State.recordAll_empty (s : State) (es : List Raised) (h1 : s.events = []) (h2 : s.nextEvent = 0)
    (h3 : s.overflow = 0) :
    (s.recordAll es).events.map Event.what = es.take maxEvents ∧
      (s.recordAll es).events.map Event.number =
        (List.range (s.recordAll es).events.length).map (BitVec.ofNat 16) ∧
      (s.recordAll es).nextEvent = BitVec.ofNat 16 (s.recordAll es).events.length ∧
      (s.recordAll es).overflow.toNat = min 255 (es.length - maxEvents) := by
  induction es using List.reverseRecOn with
  | nil => simp [h1, h2, h3]
  | append_singleton es e ih =>
    obtain ⟨a, b, c, d⟩ := ih
    have hr : s.recordAll (es ++ [e]) = (s.recordAll es).record e := by simp [State.recordAll]
    have hl : (s.recordAll es).events.length = min maxEvents es.length := by
      have := congrArg List.length a; simpa using this
    rw [hr]
    generalize s.recordAll es = R at *
    unfold State.record
    by_cases hlt : R.events.length < maxEvents
    · have hes : es.length < maxEvents := by omega
      simp only [hlt, if_true]
      refine ⟨?_, ?_, ?_, ?_⟩
      · rw [List.map_append, a, List.take_of_length_le (by omega), List.take_of_length_le (by simp; omega)]; rfl
      · rw [List.map_append, b, List.length_append]
        simp [List.range_succ, c]
      · simp [c, BitVec.ofNat_add]
      · rw [d]; simp; omega
    · have hes : maxEvents ≤ es.length := by omega
      simp only [hlt, if_false]
      refine ⟨?_, b, c, ?_⟩
      · rw [a, List.take_append_of_le_length hes]
      · unfold satInc
        split
        · rename_i h; rw [h] at d; simp at d ⊢; omega
        · rename_i h
          have hne : R.overflow.toNat ≠ 255 := by
            intro h'; exact h (BitVec.eq_of_toNat_eq (by simpa using h'))
          rw [BitVec.toNat_add]; simp; omega

/-! ### What the writer does next -/

/-- An entry that cannot be written ends the work as `EntryUnwritten` says (R60, R63, R101). -/
theorem State.entryUnwritten_ends {s u : State} (hu : ArraysLeft s u) (hd : s.dev = .running) (t : Task) (after : After) :
    EntryUnwritten s (u.entryUnwritten t after).settle t after := by
  refine ⟨fun i r ho => ?_, fun ho => ?_⟩
  · have h := fun p => State.complete_completes hu.leftBy (t := t) ho hd .mediaFault p
    unfold State.entryUnwritten
    rw [ho]
    cases after <;> exact h _
  · have h := State.endBackground_ends hu.leftBy t hd false
    unfold State.entryUnwritten
    rw [ho]
    exact h

/-- The writer's next move leaves the catalogue segments alone. -/
theorem State.runWriter_catSegs (u : State) (after : After) (n : WriterNext) :
    (u.runWriter after n).settle.catSegs = u.catSegs := by
  rw [State.settle, (State.runWriter_workFrame u after n rfl).only]

/-- An entry for which no compaction can be had: its program in a position that remains, or the end (R60, R63). -/
theorem State.programEntry_readOnly {s u : State} (hu : ArraysLeft s u) (hd : s.dev = .running) (t : Task) (e : Entry)
    (rest : List CatAction) (after : After) :
    ReadOnlyEntry s (u.runWriter after (programEntry t.enterReadOnly e rest after)).settle t e rest after := by
  refine ⟨fun k h1 h2 => ?_, fun h => ?_⟩
  · have he : programEntry t.enterReadOnly e rest after = .operate t.readOnly
        (.catEntry k t.work.cat.fill e (t.work.profile t.work.activeProfile).programClass)
        ⟨.write e :: rest, none, after⟩ := by
      unfold programEntry
      rw [show t.enterReadOnly.work.cat.active = some k from h1]
      simp only
      rw [if_pos (show t.enterReadOnly.work.cat.fill < cataloguePositions from h2)]
      rfl
    rw [he]
    exact State.begin_goesOn hu t.readOnly _ _
  · rw [programEntry_full t.enterReadOnly e rest after h]
    exact State.entryUnwritten_ends hu hd t.readOnly after

/-- The entry at the head of the queue comes to what `EntryNext` says (R60, R61, R63). -/
theorem State.writeHead_next {s u : State} (hu : ArraysLeft s u) (hd : s.dev = .running) (t : Task) (e : Entry)
    (rest : List CatAction) (after : After) :
    EntryNext s (u.runWriter after (writeHead u.catSegs t e rest after)).settle t e rest after := by
  refine ⟨?_, ?_⟩
  · rw [State.runWriter_catSegs]
    exact (writeHead_begins u.catSegs t e rest after).mono
      (fun o st ⟨w, h1, h2⟩ => by rw [h2, h1]; exact State.begin_goesOn hu t _ _)
  · intro h
    have hp := State.programEntry_readOnly hu hd t e rest after
    have he : writeHead u.catSegs t e rest after = programEntry t.enterReadOnly e rest after := by
      rcases h with h | ⟨h, h'⟩
      · unfold writeHead
        rw [if_neg (by rw [needsCompaction_iff, h]; simp), Task.enterReadOnly_of_readOnly h]
      · exact writeHead_noTarget _ t e rest after h h'
    rw [he]
    exact hp

/-- One stream changed twice is changed once, by both. -/
theorem Tables.setStream_setStream (t : Tables) (id : Nat) (x : Machine.Stream) (f : Machine.Stream → Machine.Stream) :
    (t.setStream id x).setStream id (f ((t.setStream id x).stream id)) = t.setStream id (f x) := by
  by_cases h : id < t.streams.length
  · simp [Tables.setStream, Tables.stream, List.getD, h]
  · have hl : t.streams.length ≤ id := Nat.le_of_not_lt h
    simp [Tables.setStream, List.set_eq_of_length_le hl]

/-- A failed program whose slot is a void: the slot is used, the segment closed, the alarm waiting (R48, R99). -/
theorem Task.useSlot_closed (t : Task) (id slot : Nat) : ((t.useSlot id slot).latch alarmMediaFault).closeNewest id =
    t.carrying ({ t.work with
      tables := t.work.tables.setStream id { t.work.tables.stream id with writePos := slot + 1, closed := true } }) [] 0x01 := by
  have h := Tables.setStream_setStream t.work.tables id { t.work.tables.stream id with writePos := slot + 1 }
    (fun x => { x with closed := true })
  simpa [Task.closeNewest, Task.useSlot, Task.latch, Task.setTables, Task.carrying, alarmMediaFault] using h

/-- A failed mark program whose mark reads 5Ah: the record is committed, the segment closed, the alarm waiting (R48,
R99). -/
theorem Task.commitRecord_closed (t : Task) (id slot : Nat) :
    ((t.commitRecord id slot).latch alarmMediaFault).closeNewest id =
    t.carrying ({ t.work with
      tables := t.work.tables.setStream id { t.work.tables.stream id with
        writePos := slot + 1, next := (t.work.tables.stream id).next + 1, closed := true } }) [] 0x01 := by
  have h := Tables.setStream_setStream t.work.tables id { t.work.tables.stream id with
      writePos := slot + 1, next := (t.work.tables.stream id).next + 1 } (fun x => { x with closed := true })
  simpa [Task.closeNewest, Task.commitRecord, Task.latch, Task.setTables, Task.carrying, alarmMediaFault] using h

/-- An entry that begins the next work comes to what `EntryNext` says (R60, R61, R63). -/
theorem State.writeEntry_next {s u : State} (hu : ArraysLeft s u) (hd : s.dev = .running) (t : Task) (e : Entry)
    (after : After) : EntryNext s (u.writeEntry t e after).settle t e [] after := by
  have h := State.writeHead_next hu hd t e [] after
  have hn : ∀ t', writeHead u.catSegs t e [] after ≠ .done t' := by
    intro t'
    unfold writeHead programEntry
    repeat' split
    all_goals simp
  have he : u.writeEntry t e after = u.runWriter after (writeHead u.catSegs t e [] after) := by
    unfold State.writeEntry State.runWriter
    cases hw : writeHead u.catSegs t e [] after with
    | operate t' op w => rfl
    | full t' => rfl
    | done t' => exact absurd hw (hn t')
  rw [he]
  exact h

/-- What a failed program of a record or of its mark leads to (R48): the entry begins with the segment closed already. -/
theorem State.makeSuspect_next {s u : State} (hu : ArraysLeft s u) (hd : s.dev = .running) (t : Task) (id seg : Nat)
    (after : After) : EntryNext s (u.makeSuspect t id seg after).settle
      ((t.latch alarmMediaFault).closeNewest id) (.suspect seg) [] after :=
  State.writeEntry_next hu hd _ _ after

/-- Allocation goes on as `Allocates` says (R52, R53, R56, R96). -/
theorem State.allocate_next {s u : State} (hu : ArraysLeft s u) (hd : s.dev = .running) (t : Task) (a : AppendData)
    {i : Nat} {r : Request} (ho : t.owner = .request i r) :
    Allocates t.work a ⟨s.tick, s.timeUnset⟩ (GoesOn s (u.allocate t a).settle t)
      (fun e next => EntryNext s (u.allocate t a).settle t e [] next)
      (fun status more => Completes s (u.allocate t a).settle i r status (unrecorded t.work a) t.work (t.events ++ more)
        t.alarms) := by
  have hst : u.stamp = ⟨s.tick, s.timeUnset⟩ := by rw [hu]; rfl
  rw [← hst]
  exact (State.allocate_allocates u t a).mono (fun o st h => by rw [h]; exact State.begin_goesOn hu t _ _)
    (fun e n h => by rw [h]; exact State.writeEntry_next hu hd t e n)
    (fun st evs h => by rw [h]; exact State.complete_completes hu.leftBy (t := t.raise evs) ho hd _ _)

/-- The quota test and what follows it go on as `NeedsSegment` says (R94). -/
theorem State.newSegment_next {s u : State} (hu : ArraysLeft s u) (hd : s.dev = .running) (t : Task) (a : AppendData)
    {i : Nat} {r : Request} (ho : t.owner = .request i r) :
    NeedsSegment t.work a ⟨s.tick, s.timeUnset⟩ (GoesOn s (u.newSegment t a).settle t)
      (fun e next => EntryNext s (u.newSegment t a).settle t e [] next)
      (fun status more => Completes s (u.newSegment t a).settle i r status (unrecorded t.work a) t.work (t.events ++ more)
        t.alarms) := by
  have hst : u.stamp = ⟨s.tick, s.timeUnset⟩ := by rw [hu]; rfl
  rw [← hst]
  exact (State.newSegment_needs u t a).mono (fun o st h => by rw [h]; exact State.begin_goesOn hu t _ _)
    (fun e n h => by rw [h]; exact State.writeEntry_next hu hd t e n)
    (fun st evs h => by rw [h]; exact State.complete_completes hu.leftBy (t := t.raise evs) ho hd _ _)

/-- What follows the writer's work is what `WriterDone` says (R58, R83, R98 to R101, R121, R156). -/
theorem State.afterWriter_done {s u : State} (hu : ArraysLeft s u) (hd : s.dev = .running) (t : Task) (after : After) :
    WriterDone s (u.afterWriter t after).settle t after := by
  cases after with
  | reply p => exact fun i r ho => State.complete_completes hu.leftBy ho hd _ _
  | formatReply p => exact fun i r ho => State.complete_completes hu.leftBy ho hd _ _
  | option code p =>
    exact fun i r ho => State.complete_completes hu.leftBy (t := { t with work := optionEffect code t.work }) ho hd _ _
  | recorded a seg slot => exact fun i r ho => State.complete_completes hu.leftBy ho hd _ _
  | giveUp a => exact fun i r ho => State.complete_completes hu.leftBy ho hd _ _
  | backgroundEnd => exact fun _ => State.endBackground_ends hu.leftBy t hd false
  | record a =>
    intro l hl
    have he : u.afterWriter t (.record a) = u.startBody t a l.seg := by
      unfold State.afterWriter Task.streamOf Stream.newest
      simp only
      rw [hl]
    rw [he]
    exact State.begin_goesOn hu t _ _
  | allocate a gain => exact fun i r ho => State.allocate_next hu hd t a ho
  | retry a => exact fun i r ho => State.newSegment_next hu hd t { a with secondAttempt := true } ho

/-- The writer goes on with its queue as `QueueNext` says (R60, R61). -/
theorem State.writeNext_next {s u : State} (hu : ArraysLeft s u) (hd : s.dev = .running) (t : Task) (after : After)
    (queue : List CatAction) :
    QueueNext s (u.runWriter after (writeNext u.catSegs t after queue)).settle t after queue := by
  induction queue with
  | nil => exact State.afterWriter_done hu hd t after
  | cons a rest ih =>
    cases a with
    | write e => exact State.writeHead_next hu hd t e rest after
    | eraseFormer j =>
      refine ⟨fun h => ?_, fun h1 h2 => ?_⟩
      · rw [State.runWriter_catSegs] at h
        rw [show writeNext u.catSegs t after (.eraseFormer j :: rest) = writeNext u.catSegs t after rest from if_pos h]
        exact ih
      · rw [State.runWriter_catSegs] at h2
        rw [show writeNext u.catSegs t after (.eraseFormer j :: rest) =
          .operate t (.catErase j t.work.eraseTiming) ⟨.eraseFormer j :: rest, none, after⟩ from
            if_neg (by rintro (h | h); exact h1 h; rw [h2] at h; cases h)]
        exact State.begin_goesOn hu t _ _

/-! ### When an operation of the work in progress ends -/

/-- The end of an array operation in RUNNING: what it leaves, and how its owner's work goes on (R47). -/
theorem Working.exec_arrayEnd {s : State} {task : Task} {op : Operation} {stage : Stage} (h : Working s task op stage)
    (ha : op.isArray = true) (rb : ReadBack) (trip : Bool) :
    exec (if trip then .arrayWatchdogTrip rb else .arrayOperationComplete rb) s =
      .next ((s.land op rb trip).stageEnds ⟨task, op, stage⟩ ((s.land op rb trip).verified op rb && !trip) trip).settle := by
  have hd : (s.land op rb trip).dev = .running := by rw [State.land_frame]; exact h.1
  have e : s.doArrayEnd rb trip =
      (s.land op rb trip).stageEnds ⟨task, op, stage⟩ ((s.land op rb trip).verified op rb && !trip) trip := by
    unfold State.doArrayEnd
    rw [h.2]
    simp only [ha, if_true, State.operationEnds]
    rw [if_neg (by rw [hd]; decide)]
  rw [← e]
  cases trip <;> rfl

/-- The end of a fuse operation in RUNNING (R145). -/
theorem Working.exec_fuseEnd {s : State} {task : Task} {op : Operation} {stage : Stage} (h : Working s task op stage)
    (hf : op.isFuse = true) (rb : ReadBack) :
    exec (.fuseOperationComplete rb) s =
      .next ((s.land op rb false).stageEnds ⟨task, op, stage⟩ ((s.land op rb false).verified op rb) false).settle := by
  have hd : (s.land op rb false).dev = .running := by rw [State.land_frame]; exact h.1
  have e : s.doFuseEnd rb =
      (s.land op rb false).stageEnds ⟨task, op, stage⟩ ((s.land op rb false).verified op rb) false := by
    unfold State.doFuseEnd
    rw [h.2]
    simp only [hf, if_true, State.operationEnds]
    rw [if_neg (by rw [hd]; decide), Bool.not_false, Bool.and_true]
  rw [← e]
  rfl

/-- What follows the end of an operation leaves the array and the fuse store as the operation left them. -/
theorem State.stageEnds_arrays (u : State) (j : Job) (ok tripped : Bool) :
    (u.stageEnds j ok tripped).settle.flash = u.flash ∧ (u.stageEnds j ok tripped).settle.catSegs = u.catSegs ∧
      (u.stageEnds j ok tripped).settle.fuses = u.fuses := by
  have h := (State.stageEnds_workFrame u j ok tripped).only
  rw [State.settle, h]
  exact ⟨rfl, rfl, rfl⟩

/-- An entry written: its change, and the events and alarms behind the task's own (R60). -/
theorem Task.wrote_eq (t : Task) (st : Stamp) (e : Entry) : t.wrote st e =
    t.carrying (t.work.withEntry e) (entryEvents t.work.tables st e) (entryAlarms t.work.tables e) := rfl

/-- The alarm of an entry that releases segments. -/
theorem entryAlarms_released (tb : Tables) (st : Stamp) (e : Entry) (is : List Nat)
    (h : ∀ st, entryEvents tb st e = retiredOf tb st is) (hne : ∀ k, e ≠ .unusable k) :
    entryAlarms tb e = if retiredOf tb st is = [] then 0 else 0x02 := by
  have e1 : entryAlarms tb e =
      if (entryEvents tb ⟨0, false⟩ e).any (fun r => r.kind == .segmentRetired) then alarmSegmentRetired else 0 := by
    cases e <;> first | rfl | (exfalso; exact hne _ rfl)
  rw [e1, h]
  unfold retiredOf
  cases is.filter (fun i => (tb.seg i).suspect) with
  | nil => simp
  | cons a as => simp [alarmSegmentRetired]

/-- The events and alarms of an entry are those of `EntryRaises` (R57, R62, R95). -/
theorem entryEvents_raises (tb : Tables) (st : Stamp) (e : Entry) :
    EntryRaises tb st e (entryEvents tb st e) (entryAlarms tb e) := by
  cases e with
  | trimmed id o is => exact ⟨rfl, entryAlarms_released tb st _ is (fun _ => rfl) (by simp)⟩
  | deleted id => exact ⟨rfl, entryAlarms_released tb st _ _ (fun _ => rfl) (by simp)⟩
  | formatted => exact ⟨rfl, entryAlarms_released tb st _ _ (fun _ => rfl) (by simp)⟩
  | evicted id o is =>
    have he : ∀ st, entryEvents tb st (.evicted id o is) =
        eitherOrder [raised .wrapEvict st id o] (retiredOf tb st is) := fun _ => rfl
    refine ⟨?_, ?_⟩
    · rw [he]
      cases retiredOf tb st is with
      | nil => exact .inl rfl
      | cons a as =>
        unfold eitherOrder
        simp only
        split
        · exact .inl rfl
        · exact .inr rfl
    · show (if (entryEvents tb ⟨0, false⟩ _).any _ = true then alarmSegmentRetired else 0) = _
      rw [he]
      unfold retiredOf
      cases is.filter (fun i => (tb.seg i).suspect) with
      | nil => simp [eitherOrder, raised]
      | cons a as => simp [eitherOrder]; split <;> simp [alarmSegmentRetired]
  | retired seg reason => cases reason <;> exact ⟨rfl, rfl⟩
  | unusable k =>
    show (if _ then _ else _)
    have hd : degrades tb k = true ↔
        ((tb.usable.set k false).countP (· == true) = 1 ∧ tb.usable.countP (· == true) ≠ 1) := by
      simp [degrades, applyEntry, Tables.usableCount]
    by_cases hh : (tb.usable.set k false).countP (· == true) = 1 ∧ tb.usable.countP (· == true) ≠ 1
    · rw [if_pos hh]
      simp [entryEvents, entryAlarms, hd.mpr hh, alarmCatalogueDegraded, raised, byteOf]
    · rw [if_neg hh]
      have h' : degrades tb k = false := by rw [← Bool.not_eq_true, hd]; exact hh
      simp [entryEvents, entryAlarms, h']
  | _ => exact ⟨rfl, rfl⟩

/-- An entry's program verifies: the entry ends as `EntryEnds` says, and what follows is what follows the writer. -/
theorem Working.entryEnds {s : State} {task : Task} {k pos timing : Nat} {e : Entry} {after : After}
    (h : Working s task (.catEntry k pos e timing) (.catalogue ⟨[.write e], none, after⟩)) (p : State → Task → Prop)
    (hp : ∀ u : State, u = { s with catSegs := u.catSegs } →
      p (u.afterWriter (task.wrote ⟨s.tick, s.timeUnset⟩ e) (after.counted e)).settle
        (task.wrote ⟨s.tick, s.timeUnset⟩ e)) :
    ∃ t, exec (.arrayOperationComplete .asIntended) s = .next t ∧ EntryEnds s t task k e (p t) := by
  refine ⟨_, h.exec_arrayEnd rfl .asIntended false, ?_⟩
  have hu : s.land (.catEntry k pos e timing) .asIntended false =
      { s with catSegs := (s.land (.catEntry k pos e timing) .asIntended false).catSegs } := rfl
  have hother : ∀ j, j ≠ k →
      (s.land (.catEntry k pos e timing) .asIntended false).catSegs[j]? = s.catSegs[j]? := by
    intro j hj
    simp only [State.land, State.setCatSeg]
    exact List.getElem?_set_ne (fun h => hj h.symm)
  generalize s.land (.catEntry k pos e timing) .asIntended false = u at *
  have hv : (u.verified (.catEntry k pos e timing) .asIntended && !false) = true := by simp [State.verified]
  rw [hv]
  have hf := State.stageEnds_arrays u ⟨task, .catEntry k pos e timing, .catalogue ⟨[.write e], none, after⟩⟩ true false
  have hst : u.stamp = ⟨s.tick, s.timeUnset⟩ := by rw [hu]; rfl
  have he : u.stageEnds ⟨task, .catEntry k pos e timing, .catalogue ⟨[.write e], none, after⟩⟩ true false =
      u.afterWriter (task.wrote ⟨s.tick, s.timeUnset⟩ e) (after.counted e) := by
    rw [← hst]; rfl
  rw [he] at hf ⊢
  exact ⟨⟨by rw [hf.2.2, hu], fun j hj => by rw [hf.2.1]; exact hother j hj, fun a => by rw [hf.1, hu]⟩, _, _,
    entryEvents_raises _ _ _, hp u hu⟩

end Sys2Proof.Machine
end

