-- ==== Sys2Proof/Laws/Requests.lean ====
section
/-! SUPPORT. What the Request Manager's choices and an accepted request come to: one lemma for each shared
operation, to be cited in place of its unfolding. -/

namespace Sys2Proof.Machine

/-! ### Choosing a context -/

/-- The choice is the best so far or one of the list. -/
theorem lowestBy_mem (f : Context → Option Nat) (cs : List Context) :
    ∀ (k : Nat) (best : Option (Nat × Nat)) (i n : Nat), lowestBy f cs k best = some (i, n) →
      best = some (i, n) ∨ ∃ j c, i = k + j ∧ cs[j]? = some c ∧ f c = some n := by
  induction cs with
  | nil => intro k best i n h; exact .inl h
  | cons c cs ih =>
    intro k best i n h
    rw [lowestBy] at h
    rcases ih _ _ _ _ h with hb | ⟨j, d, hi, hd, hf⟩
    · split at hb
      · exact .inl hb
      · rename_i m hm
        split at hb
        · cases hb; exact .inr ⟨0, c, rfl, rfl, hm⟩
        · split at hb
          · cases hb; exact .inr ⟨0, c, rfl, rfl, hm⟩
          · exact .inl hb
    · exact .inr ⟨j + 1, d, by omega, by simpa using hd, hf⟩

/-- Nothing is chosen only if there is nothing to choose from. -/
theorem lowestBy_none (f : Context → Option Nat) (cs : List Context) :
    ∀ (k : Nat) (best : Option (Nat × Nat)), lowestBy f cs k best = none ↔ best = none ∧ ∀ c ∈ cs, f c = none := by
  induction cs with
  | nil => intro k best; simp [lowestBy]
  | cons c cs ih =>
    intro k best
    rw [lowestBy, ih]
    cases hf : f c with
    | none => simp [hf]
    | some m =>
      cases best with
      | none => simp [hf]
      | some b => obtain ⟨j, q⟩ := b; simp [hf]; split <;> simp

/-- The choice has the lowest number. -/
theorem lowestBy_le (f : Context → Option Nat) (cs : List Context) :
    ∀ (k : Nat) (best : Option (Nat × Nat)) (i n : Nat), lowestBy f cs k best = some (i, n) →
      (∀ b, best = some b → n ≤ b.2) ∧ ∀ c ∈ cs, ∀ m, f c = some m → n ≤ m := by
  induction cs with
  | nil => intro k best i n h; cases h; simp
  | cons c cs ih =>
    intro k best i n h
    rw [lowestBy] at h
    obtain ⟨h1, h2⟩ := ih _ _ _ _ h
    cases hf : f c with
    | none =>
      simp only [hf] at h1
      refine ⟨h1, ?_⟩
      intro d hd m hm
      rcases List.mem_cons.mp hd with rfl | hd
      · simp [hf] at hm
      · exact h2 d hd m hm
    | some q =>
      simp only [hf] at h1
      have hq : n ≤ q ∧ ∀ b, best = some b → n ≤ b.2 := by
        cases best with
        | none => exact ⟨h1 (k, q) rfl, by simp⟩
        | some b =>
          obtain ⟨j, m⟩ := b
          by_cases hlt : q < m
          · simp only [hlt, if_true] at h1
            have := h1 (k, q) rfl
            exact ⟨this, by intro b hb; cases hb; simp at *; omega⟩
          · simp only [hlt, if_false] at h1
            have := h1 (j, m) rfl
            exact ⟨by simp at *; omega, by intro b hb; cases hb; exact this⟩
      refine ⟨hq.2, ?_⟩
      intro d hd m hm
      rcases List.mem_cons.mp hd with rfl | hd
      · rw [hf] at hm; cases hm; exact hq.1
      · exact h2 d hd m hm

/-- The one context that waits is the oldest that waits (R37). -/
theorem nextQueued_set {cs : List Context} {i : Nat} {r : Request} (hi : i < cs.length)
    (h : ∀ c ∈ cs, c.isQueued = false) : nextQueued (cs.set i (.held r .queued)) = some i := by
  have hq : ∀ c : Context, c.isQueued = false → c.queuedNumber? = none := by
    intro c hc; cases c with
    | free => rfl
    | held q p => cases p <;> first | rfl | simp [Context.isQueued] at hc
  unfold nextQueued
  cases hl : lowestBy Context.queuedNumber? (cs.set i (.held r .queued)) 0 none with
  | none =>
    have := ((lowestBy_none _ _ _ _).mp hl).2 (.held r .queued) (List.mem_set hi _)
    simp [Context.queuedNumber?] at this
  | some p =>
    obtain ⟨j, n⟩ := p
    rcases lowestBy_mem _ _ _ _ _ _ hl with hb | ⟨k, c, hj, hc, hf⟩
    · simp at hb
    · simp only [Option.map_some, Option.some.injEq]
      by_cases hk : i = k
      · omega
      · rw [List.getElem?_set_ne hk] at hc
        have := hq c (h c (List.mem_of_getElem? hc))
        rw [this] at hf; cases hf

/-- With a context FREE the first one is taken (R32). -/
theorem firstFree_spec {s : State} (h : ∃ c ∈ s.contexts, c.isFree = true) :
    ∃ i, firstFree s.contexts = some i ∧ LowestFree s i ∧ i < s.contexts.length := by
  cases hf : firstFree s.contexts with
  | none =>
    obtain ⟨c, hc, hfree⟩ := h
    have := List.findIdx?_eq_none_iff.mp hf c hc
    rw [hfree] at this; cases this
  | some i =>
    obtain ⟨hi, hp, hlt⟩ := List.findIdx?_eq_some_iff_getElem.mp hf
    have hfree : s.contexts[i] = .free := by
      generalize s.contexts[i] = c at hp
      cases c with
      | free => rfl
      | held r p => simp [Context.isFree] at hp
    refine ⟨i, rfl, ⟨by simp [hi, hfree], ?_⟩, hi⟩
    intro c hc
    obtain ⟨j, hj, rfl⟩ := List.getElem_of_mem hc
    simp only [List.length_take] at hj
    have := hlt j (by omega)
    simpa [List.getElem_take] using this

/-- Taking a FREE context leaves one fewer FREE. -/
theorem freeCount_set {cs : List Context} {i : Nat} {c : Context} (hi : cs[i]? = some .free) (hc : c.isFree = false) :
    freeCount (cs.set i c) = freeCount cs - 1 := by
  obtain ⟨hlt, hget⟩ := List.getElem?_eq_some_iff.mp hi
  unfold freeCount
  rw [List.countP_set hlt, hget]
  simp [hc, show Context.isFree .free = true from rfl]

/-- While nothing is QUEUED or EXECUTING there is no media context. -/
theorem mediaCount_eq_zero {cs : List Context} (h : ∀ c ∈ cs, c.isQueued = false ∧ c.isExecuting = false) :
    mediaCount cs = 0 := by
  unfold mediaCount
  rw [List.countP_eq_zero]
  intro c hc hm
  obtain ⟨h1, h2⟩ := h c hc
  cases c with
  | free => simp [Context.isMedia] at hm
  | held r p => cases p <;> simp_all [Context.isMedia, Context.isQueued, Context.isExecuting]

/-! ### Kinds -/

/-- A kind's code names it. -/
@[simp] theorem kindOf_code (k : Kind) : kindOf k.code = some k := by cases k <;> decide

/-! ### Intake -/

/-- Intake accepts any known kind in a state that meets the conditions. -/
theorem Accepts.intake_eq {s : State} {tag : Byte} (h : Accepts s tag) (k : Kind)
    (hm : k.isMedia = true → mediaCount s.contexts < maxMedia) : s.intake (some k) tag = .accepted := by
  obtain ⟨h1, h2, h3, h4, h5, h6, c, hc, hfree⟩ := h
  have ht : s.contexts.any (Context.hasTag tag) = false := by
    rw [List.any_eq_false]; intro c hc; simp [h6 c hc]
  have hn : ¬ freeCount s.contexts = 0 := by
    unfold freeCount; rw [List.countP_eq_zero]; intro hh; exact hh c hc hfree
  have hq : ¬ (k.isMedia = true ∧ maxMedia ≤ mediaCount s.contexts) := by
    rintro ⟨a, b⟩; have := hm a; omega
  simp [State.intake, State.intakeState, h2, h3, ht, hn, hq]

/-- Everything `Accepts` asks of a state stays when the link opens a transaction and GUARD# is looked at. -/
theorem State.decision_of_accepts {s u : State} {tag : Byte} (h : Accepts s tag) (hc : u.contexts = s.contexts)
    (hd : u.dev = s.dev) (hp : u.sleepPending = s.sleepPending) (k : Kind)
    (hm : k.isMedia = true → mediaCount s.contexts < maxMedia) : u.intake (some k) tag = .accepted := by
  rw [← Accepts.intake_eq h k hm]
  simp [State.intake, State.intakeState, hc, hd, hp]

/-! ### An accepted request -/

/-- The link opened for a request on `s`. -/
def State.opened (s : State) : State :=
  { s with
    csLow := true
    txn := .lead 0xA1 s.resetArm
    leadSdo := some 0xFF
    offered := none
    sdo := .drive [] 0xFF
    resetArm := false }

/-- What opening a transaction for a request does where the link is free. -/
theorem LinkIdle.opened_eq {s : State} (h : LinkIdle s) :
    s.openTxn 0xA1 = s.opened ∧ s.opened.decoding = some s.resetArm := by
  have ho : s.openTxn 0xA1 = s.opened := by
    rw [LinkIdle.openTxn_eq h]; simp [State.opened, knownLead, State.leadBytes]
  exact ⟨ho, by rw [← ho]; exact LinkIdle.decoding_openTxn h _ _⟩

/-- An immediate request of this kind and tag is accepted: what `Accepts` gives for every kind, and `AcceptsAlsoFaulted`
for those that a device in FAULTED takes in (R27, R28). -/
structure TakesImmediate (s : State) (tag : Byte) (k : Kind) : Prop where
  immediate : k.isMedia = false
  link : LinkIdle s
  free : ∃ c ∈ s.contexts, c.isFree = true
  intake : s.opened.intake (some k) tag = .accepted

theorem Accepts.takesImmediate {s : State} {tag : Byte} (h : Accepts s tag) {k : Kind} (hk : k.isMedia = false) :
    TakesImmediate s tag k where
  immediate := hk
  link := h.linkIdle
  free := h.2.2.2.2.2.2
  intake := State.decision_of_accepts h rfl rfl rfl k (by simp [hk])

theorem AcceptsAlsoFaulted.takesImmediate {s : State} {tag : Byte} (h : AcceptsAlsoFaulted s tag) {k : Kind}
    (hk : k.isMedia = false) (ha : k.allowedFaulted = true) : TakesImmediate s tag k := by
  obtain ⟨h1, h2, h3, h4, h5, c, hcm, hfree⟩ := h
  obtain ⟨hd, hp⟩ | hd := h2
  · exact Accepts.takesImmediate ⟨h1, hd, hp, h3, h4, h5, c, hcm, hfree⟩ hk
  · refine ⟨hk, ⟨h1, by rw [hd]; simp, h3, h4⟩, ⟨c, hcm, hfree⟩, ?_⟩
    have ht : s.contexts.any (Context.hasTag tag) = false := by
      rw [List.any_eq_false]; intro c hc; simp [h5 c hc]
    have hn : ¬ freeCount s.contexts = 0 := by
      unfold freeCount; rw [List.countP_eq_zero]; intro hh; exact hh c hcm hfree
    simp [State.opened, State.intake, State.intakeState, hd, ha, ht, hn, hk]

/-- An accepted immediate request: the answer of its kind, and its context DONE (R34). -/
theorem TakesImmediate.doImmediate_eq {s : State} {tag : Byte} {k : Kind} (h : TakesImmediate s tag k)
    (params : List Byte) (env : Env) (hl : params.length ≤ maxParams) :
    ∃ i, firstFree s.contexts = some i ∧ LowestFree s i ∧ i < s.contexts.length ∧
      s.doImmediate k tag params env =
        (let a := (s.opened.takeIn k).answer k params env
         (a.1.finish i (s.newRequest k tag params) a.2.1 a.2.2).driveIntake .accepted) := by
  obtain ⟨i, hi, hlow, hlt⟩ := firstFree_spec h.free
  refine ⟨i, hi, hlow, hlt, ?_⟩
  have hl' : ¬ maxParams < params.length := by omega
  have hacc : s.opened.accept k tag params env =
      (let a := (s.opened.takeIn k).answer k params env
       a.1.finish i (s.newRequest k tag params) a.2.1 a.2.2) := by
    have hi' : firstFree s.opened.contexts = some i := hi
    unfold State.accept
    rw [hi']
    simp only [h.immediate]
    rfl
  simp only [State.doImmediate, h.link.opened_eq.1, h.link.opened_eq.2, hl', if_false, State.submitIntact,
    State.takeDecision, kindOf_code, h.intake, hacc, if_true]

/-- An immediate request that is refused leaves nothing behind but its reply (R34, R35). -/
theorem TakesImmediate.declines {s : State} {tag : Byte} {k : Kind} (h : TakesImmediate s tag k) (hk : k ≠ .arm)
    {params : List Byte} {env : Env} (hl : params.length ≤ maxParams) {st : Status}
    (ha : (s.opened.takeIn k).answer k params env = (s.opened.takeIn k).declines st) :
    Answered s (s.doImmediate k tag params env).settle k tag params false st [] ∧
      Becomes s (s.doImmediate k tag params env).settle (s.requestOf (s.doImmediate k tag params env).settle) := by
  obtain ⟨i, hi, hlow, hlt, heq⟩ := h.doImmediate_eq params env hl
  have harm : armMatches s.armLatch k params = false := by
    have := h.immediate
    cases hL : s.armLatch <;> cases k <;> simp_all [armMatches, Kind.isArmed, Kind.isMedia]
  rw [heq, ha]
  refine ⟨⟨⟨rfl, rfl, rfl, ?_⟩, rfl, rfl, ?_, i, hlow, ?_⟩, ?_, ?_⟩
  · simp only [State.settle, State.driveIntake, State.finish, State.declines, Intake.code]
    exact congrArg (fun n => Sdo.drive [0xFF, 0x00, byteOf n] 0xFF) (freeCount_set hlow.1 rfl)
  · simp [State.settle, State.driveIntake, State.finish, State.declines, State.takeIn, latchAfter, hk]
  · simp [State.settle, State.driveIntake, State.finish, State.declines, State.takeIn, State.opened, State.newRequest, harm]
  · rfl
  · intro a; rfl

/-- The state in which the engine starts an accepted media request. -/
def State.queuedRequest (s : State) (i : Nat) (k : Kind) (tag : Byte) (params : List Byte) : State :=
  ({ s.opened.takeIn k with
      contexts := s.contexts.set i (.held (s.newRequest k tag params) .queued) }).driveIntake .accepted

/-- A media request of this kind and tag is accepted and starts at once: what `Accepts` with an idle engine gives in
RUNNING, and `AcceptsFaulted` for a FORMAT in FAULTED (R27, R28, R37). -/
structure TakesMedia (s : State) (tag : Byte) (k : Kind) : Prop where
  media : k.isMedia = true
  link : LinkIdle s
  dev : s.dev = .running ∨ s.dev = .faulted
  idle : EngineIdle s
  sleep : s.sleepPending = false
  free : ∃ c ∈ s.contexts, c.isFree = true
  intake : ∀ u : State, u.contexts = s.contexts → u.dev = s.dev → u.sleepPending = s.sleepPending →
    u.intake (some k) tag = .accepted

theorem Accepts.takes {s : State} {tag : Byte} (h : Accepts s tag) (he : EngineIdle s) {k : Kind}
    (hk : k.isMedia = true) : TakesMedia s tag k where
  media := hk
  link := h.linkIdle
  dev := .inl h.2.1
  idle := he
  sleep := h.2.2.1
  free := h.2.2.2.2.2.2
  intake := fun u hc hd hp => State.decision_of_accepts h hc hd hp k
    (by rw [mediaCount_eq_zero he.2.2]; simp [maxMedia])

theorem AcceptsFaulted.takes {s : State} {tag : Byte} (h : AcceptsFaulted s tag) (he : EngineIdle s) :
    TakesMedia s tag .format where
  media := rfl
  link := ⟨h.1, by rw [h.2.1]; simp, h.2.2.2.1, h.2.2.2.2.1⟩
  dev := .inr h.2.1
  idle := he
  sleep := h.2.2.1
  free := h.2.2.2.2.2.2.2
  intake := by
    intro u hc hd hp
    obtain ⟨-, h2, -, -, -, -, h6, c, hcm, hfree⟩ := h
    have ht : s.contexts.any (Context.hasTag tag) = false := by
      rw [List.any_eq_false]; intro c hc; simp [h6 c hc]
    have hn : ¬ freeCount s.contexts = 0 := by
      unfold freeCount; rw [List.countP_eq_zero]; intro hh; exact hh c hcm hfree
    have hm : ¬ maxMedia ≤ mediaCount s.contexts := by rw [mediaCount_eq_zero he.2.2]; simp [maxMedia]
    simp [State.intake, State.intakeState, hc, hd, h2, ht, hn, hm, Kind.allowedFaulted]

/-- An accepted media request that finds the engine idle starts at once (R37, R39). -/
theorem TakesMedia.doMedia_eq {s : State} {tag : Byte} {k : Kind} (h : TakesMedia s tag k)
    (params : List Byte) (env : Env) (hl : params.length ≤ maxParams) :
    ∃ i, LowestFree s i ∧ i < s.contexts.length ∧
      s.doMedia k tag params env =
        (((s.observe env).queuedRequest i k tag params).markExecuting i (s.newRequest k tag params)).startKind
          ⟨.request i (s.newRequest k tag params), s.committed, [], 0⟩ (s.newRequest k tag params) env := by
  obtain ⟨hj, hr, hc⟩ := h.idle
  obtain ⟨i, hi, hlow, hlt⟩ := firstFree_spec h.free
  refine ⟨i, hlow, hlt, ?_⟩
  have hdec : s.linkDecodes = true := by
    obtain ⟨h1, h2, _⟩ := h.link; simp [State.linkDecodes, h1, h2]
  have hu : s.observe env = { s with guardHigh := env.guardHigh } := by simp [State.observe, hdec]
  have hL : LinkIdle (s.observe env) := by rw [hu]; exact h.link
  obtain ⟨hopen, hdecoding⟩ := hL.opened_eq
  have hin : (s.observe env).opened.intake (some k) tag = .accepted :=
    h.intake _ (by rw [hu]; rfl) (by rw [hu]; rfl) (by rw [hu]; rfl)
  have hl' : ¬ maxParams < params.length := by omega
  have hi' : firstFree (s.observe env).opened.contexts = some i := by rw [hu]; exact hi
  have hnr : (s.observe env).opened.newRequest k tag params = s.newRequest k tag params := by rw [hu]; rfl
  have hacc : ((s.observe env).opened.accept k tag params env).driveIntake .accepted =
      (s.observe env).queuedRequest i k tag params := by
    unfold State.accept
    rw [hi']
    simp only [h.media, if_true, hnr]
    rw [hu]
    rfl
  have hq : nextQueued ((s.observe env).queuedRequest i k tag params).contexts = some i := by
    rw [hu]
    exact nextQueued_set hlt (fun c hc' => (hc c hc').1)
  have hget : ((s.observe env).queuedRequest i k tag params).contexts.getD i .free =
      .held (s.newRequest k tag params) .queued := by
    rw [hu]
    simp [State.queuedRequest, State.driveIntake, State.newRequest, hlt]
  have hex : ((s.observe env).queuedRequest i k tag params).contexts.any Context.isExecuting = false := by
    rw [hu]
    simp only [State.queuedRequest, State.driveIntake]
    rw [List.any_eq_false]
    intro c hc'
    rcases List.mem_or_eq_of_mem_set hc' with hc'' | rfl
    · simp [(hc c hc'').2]
    · simp [Context.isExecuting]
  have hidle : ((s.observe env).queuedRequest i k tag params).idleMedia = true := by
    rw [State.idleMedia, hex]
    rw [hu]
    simp [State.queuedRequest, State.driveIntake, State.takeIn, State.opened, hj, hr, h.link.1, h.sleep]
  have hdev : (((s.observe env).queuedRequest i k tag params).dev == DevState.running ||
      ((s.observe env).queuedRequest i k tag params).dev == DevState.faulted) = true := by
    rw [hu]
    rcases h.dev with hd | hd <;> simp [State.queuedRequest, State.driveIntake, State.takeIn, State.opened, hd]
  have hcom : ((s.observe env).queuedRequest i k tag params).committed = s.committed := by rw [hu]; rfl
  simp only [State.doMedia, hopen, hdecoding, hl', if_false, State.takeDecision,
    kindOf_code, hin, if_true, hacc]
  unfold State.startNext
  rw [hidle, hdev]
  simp only [hq, hget, hcom]
  rfl

/-- The same of an accepting device in RUNNING. -/
theorem Accepts.doMedia_eq {s : State} {tag : Byte} (h : Accepts s tag) (he : EngineIdle s) (k : Kind)
    (params : List Byte) (env : Env) (hk : k.isMedia = true) (hl : params.length ≤ maxParams) :
    ∃ i, LowestFree s i ∧ i < s.contexts.length ∧
      s.doMedia k tag params env =
        (((s.observe env).queuedRequest i k tag params).markExecuting i (s.newRequest k tag params)).startKind
          ⟨.request i (s.newRequest k tag params), s.committed, [], 0⟩ (s.newRequest k tag params) env :=
  (h.takes he hk).doMedia_eq params env hl

/-! ### Completion -/

/-- What committing a task does in RUNNING (R36, R41, R66). -/
theorem State.commit_running (s : State) (t : Task) (h : s.dev = .running) :
    s.commit t = (({ s with
      committed := t.work
      job := none
      alarms := s.alarms ||| t.alarms
      tickPeriod :=
        if t.work.tables.settings.tickPeriod = s.committed.tables.settings.tickPeriod then s.tickPeriod
        else t.work.tables.settings.tickPeriod.toNat
      reconsider := s.reconsider || (s.reclaimPaused &&
        (t.work.activeProfile != s.committed.activeProfile || (t.work.permits && !s.committed.permits))) }).recordAll
      t.events).comparePool := by
  have hd : ∀ (u : State) (es : List Raised), (u.recordAll es).dev = u.dev := by
    intro u es; rw [State.recordAll_frame]
  simp only [State.commit, h]
  rw [hd]
  simp

/-! ### A media request from its acceptance to its first work -/

/-- The state in which the engine takes up a media request just accepted: its context EXECUTING (R37). -/
def State.starting (s : State) (env : Env) (i : Nat) (k : Kind) (tag : Byte) (params : List Byte) : State :=
  ((s.observe env).queuedRequest i k tag params).markExecuting i (s.newRequest k tag params)

/-- That state, field by field. -/
theorem State.starting_eq {s : State} (hr : s.resetLow = false) (hd : s.dev ≠ .deepSleep) (env : Env) {i : Nat} {k : Kind}
    (tag : Byte) (params : List Byte) (hk : k.isMedia = true) (hi : LowestFree s i) :
    s.starting env i k tag params =
      { s with
        guardHigh := env.guardHigh
        csLow := true
        txn := .ended
        leadSdo := some 0xFF
        offered := none
        resetArm := false
        sdo := .drive [0xFF, 0x00, byteOf (freeCount s.contexts - 1)] 0xFF
        armLatch := none
        nextAcceptance := s.nextAcceptance + 1
        contexts := s.contexts.set i (.held (s.newRequest k tag params) .executing) } := by
  have hne : k ≠ .arm := by rintro rfl; simp [Kind.isMedia] at hk
  have hob : s.observe env = { s with guardHigh := env.guardHigh } := by simp [State.observe, State.linkDecodes, hr, hd]
  have hfc := freeCount_set (c := .held (s.newRequest k tag params) .queued) hi.1 rfl
  unfold State.starting State.queuedRequest State.markExecuting State.driveIntake State.takeIn State.opened
  rw [hob]
  have e : ({ s with guardHigh := env.guardHigh } : State).newRequest k tag params = s.newRequest k tag params := rfl
  simp only [e, hfc, List.set_set, latchAfter, hne, if_false]
  rfl

/-- What the engine's work looks at in that state. -/
theorem Accepts.starting_fields {s : State} {tag : Byte} (h : Accepts s tag) (env : Env) {i : Nat} {k : Kind}
    (params : List Byte) (hk : k.isMedia = true) (hi : LowestFree s i) :
    (s.starting env i k tag params).flash = s.flash ∧ (s.starting env i k tag params).stamp = ⟨s.tick, s.timeUnset⟩ ∧
      (s.starting env i k tag params).dev = .running ∧ (s.starting env i k tag params).catSegs = s.catSegs ∧
      (s.starting env i k tag params).committed = s.committed ∧
      (s.starting env i k tag params).fuses = s.fuses := by
  rw [State.starting_eq h.1 (by rw [h.2.1]; simp) env tag params hk hi]
  exact ⟨rfl, rfl, h.2.1, rfl, rfl, rfl⟩

/-- A kind that needs no arming is never armed (R141). -/
theorem armMatches_unarmed (l : Option ArmPair) (k : Kind) (ps : List Byte) (h : k.isArmed = false) :
    armMatches l k ps = false := by
  cases l <;> simp [armMatches, h]

/-- A media request whose work completes it at once (R37, R39, R41). -/
theorem Accepts.completes {s : State} {tag : Byte} (h : Accepts s tag) (he : EngineIdle s) {k : Kind}
    {params : List Byte} {env : Env} (hk : k.isMedia = true) (hl : params.length ≤ maxParams) {st : Status}
    {p : List Byte} {w : Committed} {evs : List Raised} {armed : Bool} (ha : armMatches s.armLatch k params = armed)
    (hw : w.tables.settings.tickPeriod = s.committed.tables.settings.tickPeriod)
    (hs : ∀ i, LowestFree s i →
      (s.starting env i k tag params).startKind
          ⟨.request i (s.newRequest k tag params), s.committed, [], 0⟩ (s.newRequest k tag params) env =
        (s.starting env i k tag params).complete ⟨.request i (s.newRequest k tag params), w, evs, 0⟩ st p) :
    CompletedAtOnce s (s.doMedia k tag params env).settle k tag params armed st p w evs := by
  subst ha
  obtain ⟨i, h1, h2, h3⟩ := h.doMedia_eq he k params env hk hl
  have h3' : s.doMedia k tag params env = (s.starting env i k tag params).complete
      ⟨.request i (s.newRequest k tag params), w, evs, 0⟩ st p := by rw [h3]; exact hs i h1
  have hp := State.starting_eq h.1 (by rw [h.2.1]; simp) env tag params hk h1
  have hdev : (s.starting env i k tag params).dev = .running := by rw [hp]; exact h.2.1
  have hcm := State.commit_running (s.starting env i k tag params)
    ⟨.request i (s.newRequest k tag params), w, evs, 0⟩ hdev
  simp only [State.complete] at h3'
  rw [hcm] at h3'
  have hj := he.1
  generalize hP : s.starting env i k tag params = P at *
  simp only at h3'
  generalize hu : ({ P with
      committed := w
      job := none
      alarms := P.alarms ||| 0
      tickPeriod :=
        if w.tables.settings.tickPeriod = P.committed.tables.settings.tickPeriod then P.tickPeriod
        else w.tables.settings.tickPeriod.toNat
      reconsider := P.reconsider || (P.reclaimPaused &&
        (w.activeProfile != P.committed.activeProfile || (w.permits && !P.committed.permits))) } : State) = u at h3'
  have r2 := State.recordAll_comparePool_congr (s := u) (u := { s with committed := w }) evs (by rw [← hu, hp])
    (by rw [← hu, hp]) (by rw [← hu, hp]) (by rw [← hu]) (by rw [← hu, hp]) (by rw [← hu, hp]) (by rw [← hu, hp])
  have c1 := State.recordAll_comparePool_frame u evs
  have c2 := State.recordAll_comparePool_frame { s with committed := w } evs
  generalize hX : (u.recordAll evs).comparePool = X at *
  unfold CompletedAtOnce
  generalize hY : (({ s with committed := w } : State).recordAll evs).comparePool = Y at *
  rw [c1, ← hu, hp] at h3'
  refine ⟨⟨?_, ?_, ?_, ?_, i, h1, ?_⟩, ?_, ?_⟩
  · rw [h3']; exact ⟨rfl, rfl, rfl, rfl⟩
  · rw [h3']; rfl
  · rw [h3']; rfl
  · rw [h3']; rfl
  · rw [h3']; simp [State.settle, State.finish, State.newRequest]
  · obtain ⟨q1, q2, q3, q4, q5⟩ := r2
    rw [c2]
    simp only [h3', State.settle, State.finish, State.requestOf, hw, if_true, hj, q1, q2, q3, q4, q5]
    simp
  · rw [h3']; intro a; rfl

/-- A media request whose work begins an operation, with the working copy and the waiting events of a refresh, if there
was one (R37, R39). -/
theorem TakesMedia.startsWith {s : State} {tag : Byte} {k : Kind} (h : TakesMedia s tag k) {params : List Byte} {env : Env}
    (hl : params.length ≤ maxParams) {w : Committed} {evs : List Raised} {op : Operation} {stage : Stage} {armed : Bool}
    (ha : armMatches s.armLatch k params = armed)
    (hs : ∀ i, LowestFree s i →
      (s.starting env i k tag params).startKind
          ⟨.request i (s.newRequest k tag params), s.committed, [], 0⟩ (s.newRequest k tag params) env =
        (s.starting env i k tag params).begin ⟨.request i (s.newRequest k tag params), w, evs, 0⟩ op stage) :
    StartedWith s (s.doMedia k tag params env).settle k tag params armed w evs op stage := by
  subst ha
  obtain ⟨i, h1, h2, h3⟩ := h.doMedia_eq params env hl
  have h3' : s.doMedia k tag params env = (s.starting env i k tag params).begin
      ⟨.request i (s.newRequest k tag params), w, evs, 0⟩ op stage := by rw [h3]; exact hs i h1
  rw [State.starting_eq h.link.1 h.link.2.1 env tag params h.media h1] at h3'
  refine ⟨?_, ?_, ?_, ?_, ⟨i, h1, ?_, ?_⟩, ?_, ?_⟩ <;> rw [h3']
  · exact ⟨rfl, rfl, rfl, rfl⟩
  all_goals first | rfl | (intro a; rfl)

/-- The same in RUNNING, without a refresh. -/
theorem Accepts.starts {s : State} {tag : Byte} (h : Accepts s tag) (he : EngineIdle s) {k : Kind}
    {params : List Byte} {env : Env} (hk : k.isMedia = true) (hl : params.length ≤ maxParams) {op : Operation}
    {stage : Stage} {armed : Bool} (ha : armMatches s.armLatch k params = armed)
    (hs : ∀ i, LowestFree s i →
      (s.starting env i k tag params).startKind
          ⟨.request i (s.newRequest k tag params), s.committed, [], 0⟩ (s.newRequest k tag params) env =
        (s.starting env i k tag params).begin ⟨.request i (s.newRequest k tag params), s.committed, [], 0⟩ op stage) :
    Started s (s.doMedia k tag params env).settle k tag params armed op stage :=
  (h.takes he hk).startsWith hl ha hs

/-- A structural request whose work is one entry (R39, R60, R61, R63). -/
theorem Accepts.startsEntry {s : State} {tag : Byte} (h : Accepts s tag) (he : EngineIdle s) {k : Kind}
    {params : List Byte} {env : Env} (hk : k.isMedia = true) (hl : params.length ≤ maxParams) {e : Entry} {after : After}
    {armed : Bool} (ha : armMatches s.armLatch k params = armed)
    (hs : ∀ i, LowestFree s i →
      (s.starting env i k tag params).startKind
          ⟨.request i (s.newRequest k tag params), s.committed, [], 0⟩ (s.newRequest k tag params) env =
        (s.starting env i k tag params).writeEntry ⟨.request i (s.newRequest k tag params), s.committed, [], 0⟩ e after) :
    EntryStarts s (s.doMedia k tag params env).settle k tag params armed e after := by
  have hcat : ∀ i, LowestFree s i → (s.starting env i k tag params).catSegs = s.catSegs :=
    fun i hi => (h.starting_fields env params hk hi).2.2.2.1
  refine ⟨?_, fun hr hn ht => ⟨fun j h1 h2 => ?_, fun hz => ?_⟩⟩
  · have hb := fun i (hi : LowestFree s i) => State.writeEntry_entryBegins (s.starting env i k tag params)
      ⟨.request i (s.newRequest k tag params), s.committed, [], 0⟩ e after
    refine ⟨fun j hj => h.starts he hk hl ha (fun i hi => (hs i hi).trans ((hb i hi).1 j hj)), fun hr hn j js ht =>
      ⟨fun hx => h.starts he hk hl ha (fun i hi => (hs i hi).trans ?_),
        fun hx => h.starts he hk hl ha (fun i hi => (hs i hi).trans ?_)⟩⟩
    · exact ((hb i hi).2 hr hn j js ht).1 (by rw [hcat i hi]; exact hx)
    · exact ((hb i hi).2 hr hn j js ht).2 (by rw [hcat i hi]; exact hx)
  · refine (h.takes he hk).startsWith hl ha (fun i hi => (hs i hi).trans ?_)
    unfold State.writeEntry
    rw [writeHead_noTarget _ ⟨.request i (s.newRequest k tag params), s.committed, [], 0⟩ e [] after hn ht]
    unfold programEntry
    rw [show (Task.enterReadOnly ⟨.request i (s.newRequest k tag params), s.committed, [], 0⟩).work.cat.active = some j
      from h1]
    simp only
    rw [if_pos (show (Task.enterReadOnly ⟨.request i (s.newRequest k tag params), s.committed, [], 0⟩).work.cat.fill <
      cataloguePositions from h2)]
    rfl
  · refine h.completes he hk hl ha rfl (fun i hi => (hs i hi).trans ?_)
    unfold State.writeEntry
    rw [writeHead_noTarget _ ⟨.request i (s.newRequest k tag params), s.committed, [], 0⟩ e [] after hn ht]
    rw [programEntry_full _ e [] after hz]
    unfold State.entryUnwritten
    cases after <;> rfl

end Sys2Proof.Machine
end

