-- ==== Sys2Proof/Laws/Work.lean ====
section
/-! SUPPORT. What the work behind step 6 and behind a refresh comes to, in the terms of Sys2Proof/Safety.lean. -/

namespace Sys2Proof.Machine

/-! ### Parameters read back -/

/-- Four bytes read back, most significant first (R2). -/
theorem ofBe_be32 (n : Nat) (h : n < 2 ^ 32) : ofBe (be32 n) = n := by
  simp [ofBe, be32, byteOf]; omega

/-- An id and a number read back from their parameter field (R103, R109, R110). -/
theorem parseIdNumber_be32 (id : Byte) (n : Word) (h : id.toNat < 16) :
    parseIdNumber (id :: be32 n.toNat) = some (id.toNat, n.toNat) := by
  have : ofBe (be32 n.toNat) = n.toNat := ofBe_be32 _ n.isLt
  simp only [be32] at this ⊢
  simp [parseIdNumber, parseId, streamCount, h, this]

/-! ### What an APPEND captures, and what a release counts -/

/-- The two counts of a release (R82, R111). -/
theorem releaseCounts_eq (tb : Tables) (is : List Nat) : releaseCounts tb is = releasedCounts tb is := by
  simp only [releaseCounts, releasedCounts, Tables.suspects]
  congr 2
  · have := List.length_eq_countP_add_countP (fun i => (tb.seg i).suspect) (l := is)
    simp [List.countP_eq_length_filter] at this ⊢
    omega
  · simp [List.countP_eq_length_filter]

/-- The values an APPEND captures, its flags byte among them (R89). -/
theorem captureAppend_eq (w : Committed) (now : Stamp) (id marker : Byte) (payload : List Byte) (h7 : w.activeProfile ≤ 7) :
    let bit : Bool → Byte → Byte := fun b v => if b then v else 0x00
    captureAppend w now id.toNat (decide (marker = 0x01)) payload =
      ⟨id.toNat, payload, now, w.sample.value.getD 0x8000,
        bit (w.tables.stream id.toNat).timeOption 0x01 ||| bit (w.tables.stream id.toNat).tempOption 0x02 |||
          bit now.unset 0x04 ||| bit (w.sample.value.isNone || w.sample.stale) 0x08 |||
          (byteOf (w.activeProfile % 8) <<< 4) ||| bit (decide (marker = 0x01)) 0x80, w.activeProfile, 0, false⟩ := by
  unfold captureAppend recordFlags
  simp only [noSample]
  congr 1
  generalize (w.tables.stream id.toNat).timeOption = b1
  generalize (w.tables.stream id.toNat).tempOption = b2
  generalize now.unset = b3
  generalize (w.sample.value.isNone || w.sample.stale) = b4
  generalize decide (marker = 0x01) = b5
  generalize w.activeProfile = n at *
  interval_cases n <;> revert b1 b2 b3 b4 b5 <;> decide

/-! ### Behind step 6 -/

/-- The work of a request behind step 6 goes on as `WorkNext` says (R78, R79, R82, R83, R89, R93, R111, R137, R138, R144,
R150, R152, R156). -/
theorem State.startWork_next {s u : State} (hu : ArraysLeft s u) (hd : s.dev = .running) (t : Task) (i : Nat) (r : Request)
    (ho : t.owner = .request i r) : WorkNext s (u.startWork t r).settle t i r := by
  have hst : u.stamp = ⟨s.tick, s.timeUnset⟩ := by rw [hu]; rfl
  have hpi : ∀ id : Byte, id.toNat < 16 → parseStreamId [id] = some id.toNat := by
    intro id hid; simp [parseStreamId, parseId, streamCount, hid]
  have hby : ∀ id : Byte, byteOf id.toNat = id := by intro id; simp [byteOf]
  unfold WorkNext
  simp only
  cases hk : r.kind <;> simp only [State.startWork, hk]
  case append =>
    intro id marker payload hp hid hop hm hl h7
    have hpa : parseAppend r.params = some (id.toNat, decide (marker = 0x01), payload) := by
      rw [hp]
      have : marker = 0 ∨ marker = 1 := by bv_omega
      rcases this with rfl | rfl <;> simp [parseAppend, parseId, streamCount, hid, parseFlag, largestPayload, hl]
    rw [hpa]
    simp only [State.workAppend, hst]
    have hc := captureAppend_eq t.work ⟨s.tick, s.timeUnset⟩ id marker payload h7
    simp only at hc
    rw [hc]
    generalize hA : (AppendData.mk id.toNat payload ⟨s.tick, s.timeUnset⟩ (t.work.sample.value.getD 0x8000) _
      t.work.activeProfile 0 false) = a
    have hso : t.streamOf a = t.work.tables.stream id.toNat := by rw [← hA]; rfl
    rw [hso]
    refine ⟨fun hn => ?_, fun hn => ⟨fun l hl hf => ?_, fun hf => ?_⟩⟩
    · rw [if_pos (show _ = lastNext from hn)]
      exact State.complete_completes hu.leftBy ho hd _ _
    · rw [if_neg (show ¬ _ = lastNext from hn)]
      have : t.work.tables.newestOpen (t.work.tables.stream id.toNat) = some l := by
        push Not at hf
        simp only [Tables.newestOpen, Stream.newest, hl]
        rw [if_pos]
        refine ⟨hop, by simpa using hf.1, by simpa using hf.2.1, ?_⟩
        have := hf.2.2
        simpa only [slotsPerSegment, pageSize] using this
      rw [this]
      have hh := State.begin_goesOn hu t
        (.program (recordCells (t.work.tables.stream id.toNat) a (l.seg * 32768 + 512 +
          (t.work.tables.stream id.toNat).writePos * (t.work.tables.stream id.toNat).slotSize))
          (t.work.profile t.work.activeProfile).programClass)
        (.body a l.seg (t.work.tables.stream id.toNat).writePos)
      subst hA
      exact hh
    · rw [if_neg (show ¬ _ = lastNext from hn)]
      have : t.work.tables.newestOpen (t.work.tables.stream id.toNat) = none := by
        unfold Tables.newestOpen Stream.newest
        cases hl : (t.work.tables.stream id.toNat).segs.getLast? with
        | none => rfl
        | some l =>
          have := hf l hl
          simp only
          rw [if_neg]
          rintro ⟨-, h1, h3, h2⟩
          simp only [slotsPerSegment, pageSize] at h2
          rcases this with h | h | h
          · rw [h] at h1; cases h1
          · rw [h] at h3; cases h3
          · omega
      rw [this]
      have := State.newSegment_next hu hd t a ho
      subst hA
      exact this
  case trim =>
    intro id n hp hid
    rw [hp, parseIdNumber_be32 id n hid]
    simp only [State.workTrim]
    refine ⟨fun h => ?_, fun h => ?_⟩
    · rw [if_pos h]; exact State.complete_completes hu.leftBy ho hd _ _
    · rw [if_neg (by omega), releaseCounts_eq]; exact State.writeEntry_next hu hd t _ _
  case createStream =>
    intro id x hp
    rw [hp]; exact State.writeEntry_next hu hd t _ _
  case deleteStream =>
    intro id hp hid
    rw [hp, hpi id hid]; simp only [State.workDelete, releaseCounts_eq]; exact State.writeEntry_next hu hd t _ _
  case sealStream =>
    intro id hp hid
    rw [hp, hpi id hid]; exact State.writeEntry_next hu hd t _ _
  case setHold =>
    intro id hp hid
    rw [hp, hpi id hid]; simp only [State.workSetHold, hby]; exact State.writeEntry_next hu hd t _ _
  case clearHold =>
    intro id hp hid
    rw [hp, hpi id hid]; simp only [State.workClearHold, hby]; exact State.writeEntry_next hu hd t _ _
  case format =>
    rw [if_neg (by rw [show u.dev = s.dev from by rw [hu]]; rw [hd]; decide)]
    simp only [State.workFormat, releaseCounts_eq]; exact State.writeEntry_next hu hd t _ _
  case setOption =>
    intro code v hp hv
    have hpo : parseSetOption (code :: be16 v.toNat) = some (code.toNat, v) := by
      have : ofBe (be16 v.toNat) = v.toNat := by simp [ofBe, be16, byteOf]; omega
      simp only [be16] at this
      simp [parseSetOption, be16, this, hv]
    rw [hp, hpo]; simp only [State.workOption, hby]; exact State.writeEntry_next hu hd t _ _
  case commitProfiles =>
    have := State.begin_goesOn hu t (.fuseCell (if t.work.fuse.bank = .aUsed then .markerB else .markerA))
      (.bankMarker (t.work.fuse.bank == .aUsed))
    simpa [State.workCommit] using this
  case setOwnerLabel =>
    intro hl
    have : parseLabel r.params = some r.params := by simp [parseLabel, hl]
    rw [this]; exact State.begin_goesOn hu t _ _
  case fixGuard =>
    simp only [State.workFixGuard]
    cases hA : t.work.fuse.guardA <;> cases hB : t.work.fuse.guardB <;> refine ⟨fun h => ?_, fun h h' => ?_⟩ <;>
      (try (exfalso; simp at h; done)) <;> (try (exfalso; cases h'; done))
    all_goals first
      | exact State.begin_goesOn hu t _ _
      | exact State.complete_completes hu.leftBy (t := t.latch alarmFuseFault) ho hd _ _

/-- A refresh of step 6 has ended: what follows is what `StepSix` says (R39, R40, R125). -/
theorem State.afterRefresh_stepSix {s u : State} (hu : ArraysLeft s u) (hd : s.dev = .running) (t : Task) {i : Nat}
    {r : Request} (ho : t.owner = .request i r) (c : Committed) (events : List Raised) :
    StepSix s (u.afterRefresh (t.carrying c events 0) r).settle t i r c events := by
  refine ⟨fun hp => ?_, fun hp => ?_⟩ <;> unfold State.afterRefresh
  · rw [if_neg (by rw [show (t.carrying c events 0).work = c from rfl, hp]; simp)]
    have := State.complete_completes hu.leftBy (t := t.carrying c events 0) ho hd .tempInhibit []
    simpa [Task.carrying, State.refuse] using this
  · rw [if_pos (show (t.carrying c events 0).work.permits = true from hp)]
    exact State.startWork_next hu hd _ i r ho

/-- A background operation's refresh has ended: the erase or the pause (R58). -/
theorem State.backgroundRefreshed_next {s u : State} (hu : ArraysLeft s u) (hd : s.dev = .running) (t : Task)
    (c : Committed) (events : List Raised) :
    BackgroundRefreshed s (u.backgroundRefreshed (t.carrying c events 0)).settle t c events := by
  have ha : (t.carrying c events 0).alarms = t.alarms := by simp [Task.carrying]
  refine ⟨fun hp d rest hl => ?_, fun hp hl => ?_, fun hp => ?_⟩ <;> unfold State.backgroundRefreshed
  · rw [if_pos (show (t.carrying c events 0).work.permits = true from hp),
      show (t.carrying c events 0).work.tables.dirty = d :: rest from hl]
    exact State.begin_goesOn hu _ _ _
  · rw [if_pos (show (t.carrying c events 0).work.permits = true from hp),
      show (t.carrying c events 0).work.tables.dirty = [] from hl]
    have := State.endBackground_ends hu.leftBy (t.carrying c events 0) hd false
    rw [ha] at this
    exact this
  · rw [if_neg (by rw [show (t.carrying c events 0).work = c from rfl, hp]; simp)]
    have := State.endBackground_ends hu.leftBy (t.carrying c events 0) hd true
    rw [ha] at this
    exact this

end Sys2Proof.Machine
end

