-- ==== Sys2Proof/Laws/Checks.lean ====
section
/-! SUPPORT. The checks of each request kind: a field that `Malformed` describes is refused BAD_PARAM before any work, and a
request of `ReachesStepSix` passes steps 1 to 4 (R35, R39). -/

namespace Sys2Proof.Machine

/-- A parameter field that R35 calls wrong is refused by every immediate kind. -/
theorem State.answer_malformed (s : State) {tb : Tables} {k : Kind} (hk : k.isMedia = false) {params : List Byte}
    (env : Env) (h : Malformed tb k params) : s.answer k params env = s.declines .badParam := by
  cases k <;> simp only [Kind.isMedia, Bool.true_eq_false] at hk <;> simp only [Malformed] at h <;>
    simp only [State.answer, State.answerIdentity, State.answerSettings, State.answerStreamInfo, State.answerPoolInfo,
      State.answerProfiles, State.answerReadEvents, State.answerReleaseEvents, State.answerClearAlarms,
      State.answerLinkStats, State.answerGetTime, State.answerSetTime, State.answerArm, State.answerAbort]
  case getIdentity | getSettings | poolInfo | readProfiles | linkStats | getTime =>
    cases params with
    | nil => exact absurd rfl h
    | cons => rfl
  case streamInfo =>
    rcases params with _ | ⟨a, _ | ⟨b, r⟩⟩ <;> try rfl
    simp at h
    have : parseStreamInfo [a] = none := by
      have h1 : a ≠ 0xFF := by rintro rfl; simp at h
      have h2 : ¬ a.toNat < 16 := by omega
      exact (if_neg h1).trans (congrArg (Option.map InfoForm.one) (if_neg h2))
    rw [this]
  case readEvents =>
    rcases params with _ | ⟨a, _ | ⟨b, r⟩⟩ <;> try rfl
    simp at h
    have : parseReadEvents [a] = none := by
      have h2 : ¬ (1 ≤ a.toNat ∧ a.toNat ≤ 8) := by
        omega
      exact if_neg h2
    rw [this]
  case releaseEvents =>
    rcases params with _ | ⟨a, _ | ⟨b, _ | ⟨c, r⟩⟩⟩ <;> try rfl
    simp at h
    have : parseReleaseEvents [a, b] = none := by
      have h1 : b ≠ 0x00 := by rintro rfl; simp at h
      have h2 : b ≠ 0x01 := by rintro rfl; simp at h
      exact (if_neg h1).trans (if_neg h2)
    rw [this]
  case clearAlarms =>
    rcases params with _ | ⟨a, _ | ⟨b, r⟩⟩ <;> try rfl
    simp at h
    have : parseClearAlarms [a] = none := by simp [parseClearAlarms]; omega
    rw [this]
  case setTime =>
    rcases params with _ | ⟨a, _ | ⟨b, _ | ⟨c, _ | ⟨d, _ | ⟨e, r⟩⟩⟩⟩⟩ <;> first | rfl | simp at h
  case arm =>
    rcases params with _ | ⟨a, _ | ⟨b, _ | ⟨c, r⟩⟩⟩ <;> try rfl
    simp at h
    have : parseArm [a, b] = none := by
      have hh : ∀ a : Byte, armTarget a = if a = 0x33 then some .deleteStream else if a = 0x37 then some .format else
        if a = 0x3A then some .commitProfiles else if a = 0x3B then some .setOwnerLabel else
          if a = 0x3C then some .fixGuard else none := by decide
      obtain ⟨g1, g2, g3, g4, g5⟩ : (a = 0x33 → 16 ≤ b.toNat) ∧ ¬ a = 0x37 ∧ ¬ a = 0x3A ∧ ¬ a = 0x3B ∧ ¬ a = 0x3C := h
      have e : armTarget a = if a = 0x33 then some .deleteStream else none := by
        rw [hh, if_neg g2, if_neg g3, if_neg g4, if_neg g5]
      by_cases g : a = 0x33
      · rw [if_pos g] at e
        have h16 := g1 g
        have : ¬ b.toNat < 16 := by omega
        simp only [parseArm, e]
        exact if_neg this
      · rw [if_neg g] at e; simp only [parseArm, e]
    rw [this]
  case abort =>
    rcases params with _ | ⟨a, _ | ⟨b, _ | ⟨c, r⟩⟩⟩ <;> try rfl
    simp at h
    have : parseAbort [a, b] = none := by
      have h1 : a ≠ 0x00 := by rintro rfl; simp at h
      have h2 : a ≠ 0x01 := by rintro rfl; simp at h
      exact (if_neg h1).trans (if_neg h2)
    rw [this]

/-- The values an item may take, as the check computes them (R154). -/
theorem SettingAllowed.iff (c v : Nat) : settingPermitted c v = true ↔ SettingAllowed c v := by
  unfold settingPermitted
  split <;> simp [SettingAllowed]
  all_goals first | omega | (refine ⟨?_, ?_, ?_, ?_, ?_, ?_, ?_, ?_, ?_⟩ <;> intro hc <;> contradiction)

/-- Two fields side by side, as a number. -/
theorem append_toNat {n m : Nat} (a : BitVec n) (b : BitVec m) : (a ++ b).toNat = a.toNat * 2 ^ m + b.toNat := by
  rw [BitVec.toNat_append, ← Nat.shiftLeft_add_eq_or_of_lt b.isLt, Nat.shiftLeft_eq]

/-- Two bytes read most significant first (R2). -/
theorem ofBe2 (a b : Byte) : ofBe [a, b] = (a ++ b : Half).toNat := by
  rw [show (a ++ b : Half).toNat = _ from append_toNat a b]; simp [ofBe]

/-- Four bytes read most significant first (R2). -/
theorem ofBe4 (a b c d : Byte) : ofBe [a, b, c, d] = (a ++ b ++ c ++ d : Word).toNat := by
  rw [show (a ++ b ++ c ++ d : Word).toNat = _ from append_toNat (a ++ b ++ c) d,
    show (a ++ b ++ c : BitVec 24).toNat = _ from append_toNat (a ++ b) c,
    show (a ++ b : Half).toNat = _ from append_toNat a b]
  simp [ofBe]

/-- A parameter field that R39 calls wrong at step 1 is refused by every media kind. -/
theorem State.startKind_malformed (s : State) (t : Task) {r : Request} (hk : r.kind.isMedia = true)
    (env : Env) (h : Malformed t.work.tables r.kind r.params) : s.startKind t r env = s.refuse t .badParam := by
  obtain ⟨tag, k, params, armed, acc⟩ := r
  cases k <;> simp only [Kind.isMedia, Bool.false_eq_true] at hk <;> simp only [Malformed] at h <;>
    simp only [State.startKind, State.startRead, State.startReadNext, State.startSeek, State.startSample,
      State.startSetTemperature, State.startWriteProfile, State.startAppend, State.startTrim, State.startCreate,
      State.startDelete, State.startSeal, State.startSetHold, State.startClearHold, State.startFormat, State.startOption,
      State.startCommit, State.startLabel, State.startFixGuard]
  case sampleTemperature | format | commitProfiles | fixGuard =>
    cases params with
    | nil => exact absurd rfl h
    | cons => rfl
  case readNext | deleteStream | sealStream | setHold | clearHold =>
    have : parseStreamId params = none := by
      rcases params with _ | ⟨a, _ | ⟨b, r⟩⟩ <;> try rfl
      simp at h
      exact if_neg (by simp only [streamCount]; omega)
    rw [this]; try rfl
  case read | seek =>
    have : parseIdNumber params = none := by
      rcases params with _ | ⟨a, _ | ⟨b, _ | ⟨c, _ | ⟨d, _ | ⟨e, _ | ⟨f, r⟩⟩⟩⟩⟩⟩ <;> try rfl
      have h' : 16 ≤ a.toNat := by
        rcases h with h | h
        · simp at h
        · exact h
      exact congrArg (Option.map _) (if_neg (by simp only [streamCount]; omega))
    rw [this]; rfl
  case setOwnerLabel =>
    have : parseLabel params = none := if_neg h
    rw [this]
  case setOption =>
    have : parseSetOption params = none := by
      rcases params with _ | ⟨a, _ | ⟨b, _ | ⟨c, _ | ⟨d, r⟩⟩⟩⟩ <;> try rfl
      have h' : ¬ SettingAllowed a.toNat (b ++ c : Half).toNat := by
        rcases h with h | h
        · simp at h
        · exact h
      rw [← SettingAllowed.iff, ← ofBe2] at h'
      exact if_neg h'
    rw [this]
  case setTemperature =>
    have : parseSetTemperature params = none := by
      rcases params with _ | ⟨a, _ | ⟨b, _ | ⟨c, r⟩⟩⟩ <;> try rfl
      have h' : ¬ (-220 ≤ (a ++ b : Half).toInt ∧ (a ++ b : Half).toInt ≤ 600) := by
        rcases h with h | h | h
        · simp at h
        · have : (a ++ b : Half).toInt < -220 := h
          omega
        · have : 600 < (a ++ b : Half).toInt := h
          omega
      have e : BitVec.ofNat 16 (ofBe [a, b]) = (a ++ b : Half) := by rw [ofBe2]; simp
      simp only [parseSetTemperature, e]
      rw [if_neg]
      simp only [plausible, Bool.and_eq_true, decide_eq_true_eq]
      exact h'
    rw [this]; try rfl
  case writeProfile =>
    have : parseWriteProfile params = none := by
      rcases params with _ | ⟨i, _ | ⟨u, _ | ⟨lh, _ | ⟨ll, _ | ⟨hh, _ | ⟨hl, _ | ⟨p, _ | ⟨pc, _ | ⟨ec, _ | ⟨x, r⟩⟩⟩⟩⟩⟩⟩⟩⟩⟩ <;> try rfl
      have h' : 7 < i.toNat ∨ 1 < u.toNat ∨ 1 < p.toNat ∨ 3 < pc.toNat ∨ 3 < ec.toNat ∨
        i.toNat ≠ 0 ∧ u.toNat = 1 ∧ (hh ++ hl : Half).toInt ≤ (lh ++ ll : Half).toInt := by
        rcases h with h | h
        · simp at h
        · exact h
      have e1 : BitVec.ofNat 16 (ofBe [lh, ll]) = (lh ++ ll : Half) := by rw [ofBe2]; simp
      have e2 : BitVec.ofNat 16 (ofBe [hh, hl]) = (hh ++ hl : Half) := by rw [ofBe2]; simp
      have pf : ∀ b : Byte, parseFlag b = if b.toNat = 0 then some false else if b.toNat = 1 then some true else none := by decide
      simp only [parseWriteProfile, e1, e2, pf]
      by_cases hu0 : u.toNat = 0
      · by_cases hp0 : p.toNat = 0 ∨ p.toNat = 1
        · rcases hp0 with hp0 | hp0 <;> simp [hu0, hp0] <;> omega
        · simp [hu0, show ¬ p.toNat = 0 by omega, show ¬ p.toNat = 1 by omega]
      · by_cases hu1 : u.toNat = 1
        · by_cases hp0 : p.toNat = 0 ∨ p.toNat = 1
          · rcases hp0 with hp0 | hp0 <;> simp [hu1, hp0] <;> omega
          · simp [hu1, show ¬ p.toNat = 0 by omega, show ¬ p.toNat = 1 by omega]
        · simp [hu0, hu1]
    rw [this]
  case trim =>
    cases hq : parseIdNumber params with
    | none => rfl
    | some q =>
      obtain ⟨id, n⟩ := q
      rcases params with _ | ⟨a, _ | ⟨b, _ | ⟨c, _ | ⟨d, _ | ⟨e, _ | ⟨f, r⟩⟩⟩⟩⟩⟩ <;> try (simp [parseIdNumber] at hq; done)
      simp only [parseIdNumber, parseId] at hq
      have h' : 16 ≤ a.toNat ∨ (t.work.tables.stream a.toNat).state ≠ .absent ∧
          (t.work.tables.stream a.toNat).next < (b ++ c ++ d ++ e : Word).toNat := by
        rcases h with h | h
        · simp at h
        · exact h
      rw [← ofBe4] at h'
      by_cases ha : a.toNat < 16
      · simp [streamCount, ha] at hq
        obtain ⟨rfl, rfl⟩ := hq
        have h2 := h'.resolve_left (by omega)
        simp only [h2.1, h2.2, ne_eq, not_false_eq_true, and_self, if_true]
      · simp [streamCount, ha] at hq
  case append =>
    cases hq : parseAppend params with
    | none => rfl
    | some q =>
      obtain ⟨id, m, payload⟩ := q
      rcases params with _ | ⟨a, _ | ⟨b, ps⟩⟩ <;> try (simp [parseAppend] at hq; done)
      have h' : 16 ≤ a.toNat ∨ 1 < b.toNat ∨ 504 < ps.length + 2 ∨ (t.work.tables.stream a.toNat).state ≠ .absent ∧
          (t.work.tables.stream a.toNat).slotSize - 10 - (if (t.work.tables.stream a.toNat).timeOption then 4 else 0) -
            (if (t.work.tables.stream a.toNat).tempOption then 2 else 0) + 2 < ps.length + 2 := by
        rcases h with h | h
        · simp at h
        · exact h
      have pf : ∀ b : Byte, parseFlag b = if b.toNat = 0 then some false else if b.toNat = 1 then some true else none := by decide
      have e0 : parseId a = if a.toNat < 16 then some a.toNat else none := rfl
      simp only [parseAppend, e0, pf, largestPayload] at hq
      by_cases ha : a.toNat < 16
      · rw [if_pos ha] at hq
        have hb : b.toNat = 0 ∨ b.toNat = 1 := by
          by_contra hc
          rw [if_neg (by omega), if_neg (by omega)] at hq; simp at hq
        have hl : ps.length ≤ 502 := by
          by_contra hc
          rcases hb with hb | hb <;> simp [hb, hc] at hq
        have hid : id = a.toNat ∧ payload = ps := by
          rcases hb with hb | hb <;> simp [hb, hl] at hq <;> simp [hq]
        obtain ⟨rfl, rfl⟩ := hid
        have h2 := (((h'.resolve_left (by omega)).resolve_left (by omega)).resolve_left (by omega))
        have h3 : (t.work.tables.stream a.toNat).maxPayload < payload.length := by
          simp only [Stream.maxPayload, Stream.optionBytes]; omega
        simp only [h2.1, h3, if_false, if_true]
      · rw [if_neg ha] at hq; simp at hq
  case createStream =>
    have : parseCreate params = none := by
      rcases params with _ | ⟨id, _ | ⟨sc, _ | ⟨ret, _ | ⟨qh, _ | ⟨ql, _ | ⟨opt, _ | ⟨s3, _ | ⟨s2, _ | ⟨s1, _ | ⟨s0, label⟩⟩⟩⟩⟩⟩⟩⟩⟩⟩ <;>
        try rfl
      by_cases hl : label.length = 0 ∨ label.length = 8
      · have h' : 16 ≤ id.toNat ∨ 3 < sc.toNat ∨ 1 < ret.toNat ∨ 1020 < (qh ++ ql : Half).toNat ∨
            ret.toNat = 0 ∧ (qh ++ ql : Half).toNat < 2 ∨ 3 < opt.toNat ∨ (s3 ++ s2 ++ s1 ++ s0 : Word).toNat = 0 ∨
            0xFFFF0000 < (s3 ++ s2 ++ s1 ++ s0 : Word).toNat := by
          rcases h with h | h
          · simp only [List.length_cons] at h; omega
          · exact h
        have key : ∀ lab, parseCreateFields id sc ret qh ql opt (ofBe [s3, s2, s1, s0]) lab = none := by
          intro lab
          have e1 : ∀ b : Byte, slotSizeOf b = if b.toNat ≤ 3 then some (64 * 2 ^ b.toNat) else none := by decide
          have e2 : ∀ b : Byte, retentionOf b = if b.toNat = 0 then some .wrap else if b.toNat = 1 then some .halt else none := by decide
          clear h
          simp only [parseCreateFields, e1, e2, parseId, ofBe2, ofBe4, streamCount]
          generalize (s3 ++ s2 ++ s1 ++ s0 : Word).toNat = n at *
          generalize (qh ++ ql : Half).toNat = q at *
          by_cases a1 : id.toNat < 16
          · by_cases a2 : sc.toNat ≤ 3
            · by_cases a3 : ret.toNat = 0
              · simp [a1, a2, a3, quotaOk]; have hL : largestStart = 0xFFFF0000 := rfl; omega
              · by_cases a4 : ret.toNat = 1
                · simp [a1, a2, a4, quotaOk]; have hL : largestStart = 0xFFFF0000 := rfl; omega
                · simp [a1, a2, a3, a4]
            · simp [a1, a2]
          · simp [a1]
        simp only [parseCreate, key, ite_self]
      · simp only [parseCreate]
        rw [if_neg (by omega), if_neg (by omega)]
    rw [this]

/-- A CREATE_STREAM within its ranges is parsed (R77). -/
theorem parseCreate_ok (id sc ret qh ql opt : Byte) (start : Word) (label : List Byte) (hid : id.toNat < 16)
      (hl : label.length = 0 ∨ label.length = 8)
      (h2 : sc.toNat ≤ 3) (h3 : ret.toNat ≤ 1) (h4 : opt.toNat ≤ 3) (h5 : (qh ++ ql).toNat ≤ 1020)
      (h6 : ret = 0x00 → 2 ≤ (qh ++ ql).toNat) (h7 : 1 ≤ start.toNat) (h8 : start.toNat ≤ 0xFFFF0000) :
      ∃ x, parseCreate ([id, sc, ret, qh, ql, opt] ++ be32 start.toNat ++ label) = some (id.toNat, x) := by
    have hsl : slotSizeOf sc = some (64 * 2^sc.toNat) := by
      have : sc = 0 ∨ sc = 1 ∨ sc = 2 ∨ sc = 3 := by bv_omega
      rcases this with rfl|rfl|rfl|rfl <;> decide
    have hret : retentionOf ret = some (if ret = 0x00 then .wrap else .halt) := by
      have : ret = 0 ∨ ret = 1 := by bv_omega
      rcases this with rfl|rfl <;> decide
    have hq : quotaOk (if ret = 0x00 then .wrap else .halt) (qh ++ ql).toNat = true := by
      by_cases hr0 : ret = 0x00
      · have := h6 hr0; simp [hr0, quotaOk, h5, this]
      · have : ¬ ret = 0#8 := hr0
        simp [this, quotaOk, h5]
    have hst := ofBe_be32 start.toNat start.isLt
    simp only [be32] at hst
    have o1 : opt.toNat < 4 := by omega
    have hpi : parseId id = some id.toNat := by simp [parseId, streamCount, hid]
    rcases hl with hl | hl
    · have : label = [] := List.length_eq_zero_iff.mp hl
      subst this
      simp only [parseCreate, be32, parseCreateFields, hpi, hsl, hret, ofBe2, hq, List.cons_append, List.nil_append, hst]
      simp [o1, largestStart, h7, h8]
    · have hne : label ≠ [] := by rintro rfl; simp at hl
      simp only [parseCreate, be32, parseCreateFields, hpi, hsl, hret, ofBe2, hq, List.cons_append, List.nil_append, hst]
      simp [o1, largestStart, hl, h7, h8]

/-- What `ReachesStepSix` says of a request: the command carries it, it is armed as its kind needs, and steps 1 to 4 let it
through to steps 5 and 6 (R39, R141). -/
theorem ReachesStepSix.passes {s : State} {tag : Byte} {env : Env} {i : Instr} {k : Kind} {ps : List Byte} {armed : Bool}
    (h : ReachesStepSix s tag env i k ps armed) :
    (∀ u : State, exec i u = .next (u.doMedia k tag ps env).settle) ∧ armMatches s.armLatch k ps = armed ∧
      ps.length ≤ maxParams ∧ k.isMedia = true ∧
      ∀ (P : State) (t : Machine.Task) (acc : Nat), t.work.tables = s.committed.tables → t.work.fuse = s.committed.fuse →
         P.startKind t ⟨tag, k, ps, armed, acc⟩ env = P.stepsFiveSix t ⟨tag, k, ps, armed, acc⟩ env := by
  have hge : ∀ (w : Committed), w.tables = s.committed.tables → w.fuse = s.committed.fuse →
      w.guardEngaged env.guardHigh = s.committed.guardEngaged env.guardHigh := by
    intro w h1 h2; simp [Committed.guardEngaged, h1, h2]
  have hun : ∀ k ps, k.isArmed = false → armMatches s.armLatch k ps = false := fun k ps h => armMatches_unarmed _ _ _ h
  have hpi : ∀ id : Byte, id.toNat < 16 → parseStreamId [id] = some id.toNat := by
    intro id hid; simp [parseStreamId, parseId, streamCount, hid]
  cases h with
  | append id marker payload hid hm ho hl hf =>
    refine ⟨fun u => rfl, hun _ _ rfl, by simp [maxParams]; omega, rfl, fun P t acc h1 h2 => ?_⟩
    have hp : ∃ m, parseAppend (id :: marker :: payload) = some (id.toNat, m, payload) := by
      have : marker = 0 ∨ marker = 1 := by bv_omega
      rcases this with rfl | rfl
      · exact ⟨false, by simp [parseAppend, parseId, streamCount, hid, parseFlag, largestPayload, hl]⟩
      · exact ⟨true, by simp [parseAppend, parseId, streamCount, hid, parseFlag, largestPayload, hl]⟩
    obtain ⟨m, hp⟩ := hp
    have : ¬ (s.committed.tables.stream id.toNat).maxPayload < payload.length := by
      simp only [Stream.maxPayload]; omega
    simp [State.startKind, State.startAppend, hp, h1, ho, this]
  | trim id n hid hs hn hg hh =>
    refine ⟨fun u => rfl, hun _ _ rfl, by simp [maxParams, be32], rfl, fun P t acc h1 h2 => ?_⟩
    have : ¬ (s.committed.tables.stream id.toNat).next < n.toNat := by omega
    simp [State.startKind, State.startTrim, parseIdNumber_be32 id n hid, h1, hs, this, hge _ h1 h2, hg, hh]
  | create id sc ret qh ql opt start label hid hl hs q1 q2 q3 q4 q5 q6 q7 =>
    refine ⟨fun u => rfl, hun _ _ rfl, by rcases hl with hl | hl <;> simp [maxParams, be32, hl], rfl, fun P t acc h1 h2 => ?_⟩
    obtain ⟨x, hx⟩ := parseCreate_ok id sc ret qh ql opt start label hid hl q1 q2 q3 q4 q5 q6 q7
    simp only [State.startKind, State.startCreate, hx, h1, hs]
    rw [if_neg (by simp)]
  | delete id hid ha hg hs hh =>
    refine ⟨fun u => rfl, by simp [ha, armMatches, Kind.isArmed], by simp [maxParams], rfl, fun P t acc h1 h2 => ?_⟩
    simp [State.startKind, State.startDelete, hpi id hid, h1, hs, hge _ h1 h2, hg, hh]
  | sealStream id hid hs =>
    refine ⟨fun u => rfl, hun _ _ rfl, by simp [maxParams], rfl, fun P t acc h1 h2 => ?_⟩
    simp [State.startKind, State.startSeal, hpi id hid, h1, hs]
  | setHold id hid hs hh =>
    refine ⟨fun u => rfl, hun _ _ rfl, by simp [maxParams], rfl, fun P t acc h1 h2 => ?_⟩
    simp [State.startKind, State.startSetHold, hpi id hid, h1, hs, hh]
  | clearHold id hid hg hs hh =>
    refine ⟨fun u => rfl, hun _ _ rfl, by simp [maxParams], rfl, fun P t acc h1 h2 => ?_⟩
    simp [State.startKind, State.startClearHold, hpi id hid, h1, hs, hh, hge _ h1 h2, hg]
  | format ha hg hh =>
    refine ⟨fun u => rfl, by simp [ha, armMatches, Kind.isArmed], by simp [maxParams], rfl, fun P t acc h1 h2 => ?_⟩
    have hh' : s.committed.tables.streams.any Stream.hold = false := by
      rw [List.any_eq_false]; intro x hx; simp [hh x hx]
    simp [State.startKind, State.startFormat, parseEmpty, h1, hh', hge _ h1 h2, hg]
  | option code vh vl hc hg =>
    refine ⟨fun u => rfl, hun _ _ rfl, by simp [maxParams], rfl, fun P t acc h1 h2 => ?_⟩
    have hp : parseSetOption [code, vh, vl] = some (code.toNat, vh ++ vl) := by
      have : settingPermitted code.toNat (vh ++ vl : Half).toNat = true := (SettingAllowed.iff _ _).mpr hc
      simp [parseSetOption, ofBe2, this]
    have hgu : optionGuarded t.work env.guardHigh code.toNat (vh ++ vl) = false := by
      simp only [optionGuarded, hge _ h1 h2]
      cases hb : s.committed.guardEngaged env.guardHigh with
      | false => rfl
      | true =>
        obtain ⟨g1, g2⟩ := hg hb
        have n7 : ¬ code.toNat = 7 := by intro h; exact g1 (by bv_omega)
        by_cases h01 : code.toNat = 1
        · obtain ⟨g3, g4, g5⟩ := g2 (by bv_omega)
          have g3' : (vh ++ vl : Half) = 0x0001 := by bv_omega
          simp [h01, g3', FuseCopies.guardFixed, h2, g4, g5]
        · simp [n7, h01]
    simp [State.startKind, State.startOption, hp, hgu]
  | commit ha hg hb =>
    refine ⟨fun u => rfl, by simp [ha, armMatches, Kind.isArmed], by simp [maxParams], rfl, fun P t acc h1 h2 => ?_⟩
    simp [State.startKind, State.startCommit, parseEmpty, h2, hge _ h1 h2, hg, hb]
  | label bytes hl ha hs =>
    refine ⟨fun u => rfl, by simp [ha, armMatches, Kind.isArmed], by simp [maxParams, hl], rfl, fun P t acc h1 h2 => ?_⟩
    simp [State.startKind, State.startLabel, parseLabel, hl, h2, hs]
  | fixGuard ha hA hB =>
    refine ⟨fun u => rfl, by simp [ha, armMatches, Kind.isArmed], by simp [maxParams], rfl, fun P t acc h1 h2 => ?_⟩
    have : s.committed.fuse.guardFixed = false := by
      unfold FuseCopies.guardFixed; simp [hA, hB]
    simp [State.startKind, State.startFixGuard, parseEmpty, h2, this]

end Sys2Proof.Machine
end

