-- ==== Sys2Proof/Laws/Memory.lean ====
section
/-! SUPPORT. The laws of the array's memory: every operation keeps the canonical form, a read after a write to the
same place gives the value written, and a write leaves every other place alone. -/

namespace Sys2Proof.Machine

/-! ### The canonical form -/

theorem Memory.wf_iff (m : List Host.Cell) :
    Memory.wf m = true ↔ (m.map Prod.fst).Pairwise (· < ·) ∧ ∀ c ∈ m, c.2 ≠ erasedByte := by
  simp [Memory.wf, List.all_eq_true]

theorem Memory.wf_nil : Memory.wf [] = true := by decide

theorem Memory.wf_cons (c : Host.Cell) (m : List Host.Cell) :
    Memory.wf (c :: m) = true ↔ (∀ d ∈ m, c.1 < d.1) ∧ c.2 ≠ erasedByte ∧ Memory.wf m = true := by
  simp only [Memory.wf_iff, List.map_cons, List.pairwise_cons, List.mem_map, List.mem_cons]
  constructor
  · rintro ⟨⟨h1, h2⟩, h3⟩
    exact ⟨fun d hd => h1 _ ⟨d, hd, rfl⟩, h3 c (.inl rfl), h2, fun d hd => h3 d (.inr hd)⟩
  · rintro ⟨h1, h2, h3, h4⟩
    refine ⟨⟨?_, h3⟩, ?_⟩
    · rintro _ ⟨d, hd, rfl⟩; exact h1 d hd
    · rintro d (rfl | hd)
      · exact h2
      · exact h4 d hd

/-- A store lists no address but the one stored to and those listed before. -/
theorem mem_writeByte {m : List Host.Cell} {a : Nat} {b : Byte} {c : Host.Cell} (h : c ∈ writeByte m a b) :
    c ∈ m ∨ c = (a, b) := by
  induction m with
  | nil => unfold writeByte at h; split at h <;> simp_all
  | cons d m ih =>
    obtain ⟨k, v⟩ := d
    unfold writeByte at h
    split at h
    · split at h <;> first | (simp_all; done) | (simp_all; tauto)
    · split at h
      · split at h <;> first | (simp_all; done) | (simp_all; tauto)
      · rcases List.mem_cons.mp h with h | h
        · exact .inl (by simp [h])
        · rcases ih h with h | h
          · exact .inl (List.mem_cons_of_mem _ h)
          · exact .inr h

/-- A store keeps the canonical form. -/
theorem writeByte_wf {m : List Host.Cell} (h : Memory.wf m = true) (a : Nat) (b : Byte) :
    Memory.wf (writeByte m a b) = true := by
  induction m with
  | nil =>
    unfold writeByte; split
    · rfl
    · rename_i hb; exact (Memory.wf_cons _ _).mpr ⟨by simp, hb, rfl⟩
  | cons d m ih =>
    obtain ⟨k, v⟩ := d
    obtain ⟨h1, h2, h3⟩ := (Memory.wf_cons _ _).mp h
    unfold writeByte
    split
    · split
      · exact h
      · rename_i hlt hb
        refine (Memory.wf_cons _ _).mpr ⟨?_, hb, h⟩
        intro c hc
        rcases List.mem_cons.mp hc with rfl | hc
        · exact hlt
        · exact Nat.lt_trans hlt (h1 c hc)
    · split
      · rename_i heq
        subst heq
        split
        · exact h3
        · rename_i hb; exact (Memory.wf_cons _ _).mpr ⟨h1, hb, h3⟩
      · rename_i hlt hne
        refine (Memory.wf_cons _ _).mpr ⟨?_, h2, ih h3⟩
        intro c hc
        rcases mem_writeByte hc with hc | rfl
        · exact h1 c hc
        · simp at *; omega

/-- Stores keep the canonical form. -/
theorem writeCells_wf (cells : List Host.Cell) {m : List Host.Cell} (h : Memory.wf m = true) :
    Memory.wf (writeCells m cells) = true := by
  induction cells generalizing m with
  | nil => exact h
  | cons c cells ih => exact ih (writeByte_wf h c.1 c.2)

/-- Leaving cells out keeps the canonical form. -/
theorem filter_wf (p : Host.Cell → Bool) {m : List Host.Cell} (h : Memory.wf m = true) :
    Memory.wf (m.filter p) = true := by
  rw [Memory.wf_iff] at *
  exact ⟨h.1.sublist (List.Sublist.map _ List.filter_sublist), fun c hc => h.2 c (List.mem_of_mem_filter hc)⟩

/-- An erase keeps the canonical form. -/
theorem eraseSegment_wf {m : List Host.Cell} (h : Memory.wf m = true) (seg : Nat) :
    Memory.wf (eraseSegment m seg) = true := filter_wf _ h

/-- Whatever a program leaves has the canonical form (R47). -/
theorem flashAfterProgram_wf {m : List Host.Cell} (h : Memory.wf m = true) (cells : List Host.Cell) (rb : ReadBack) :
    Memory.wf (flashAfterProgram m cells rb) = true := writeCells_wf _ h

/-- Whatever an erase leaves has the canonical form (R47). -/
theorem flashAfterErase_wf {m : List Host.Cell} (h : Memory.wf m = true) (seg : Nat) (rb : ReadBack) :
    Memory.wf (flashAfterErase m seg rb) = true := by
  cases rb with
  | asIntended => exact eraseSegment_wf h seg
  | untouched => exact h
  | differs bytes => exact writeCells_wf _ (eraseSegment_wf h seg)

/-- Whatever an operation leaves keeps the canonical form of the array's memory (R47, R170). -/
theorem State.land_arrayForm {s : State} (h : ArrayForm s) (op : Operation) (rb : ReadBack) (tripped : Bool) :
    ArrayForm (s.land op rb tripped) := by
  cases op with
  | program cells t => exact flashAfterProgram_wf h cells rb
  | erase seg t => exact flashAfterErase_wf h seg rb
  | _ => exact h

/-- The memory of the state after reset has the canonical form. -/
theorem reset_arrayForm : ArrayForm State.reset := Memory.wf_nil

/-! ### Reading -/

/-- An address that is not listed reads FFh. -/
theorem readByte_of_not_mem {m : List Host.Cell} {a : Nat} (h : ∀ c ∈ m, c.1 ≠ a) : readByte m a = erasedByte := by
  induction m with
  | nil => rfl
  | cons d m ih =>
    obtain ⟨k, v⟩ := d
    have hk : k ≠ a := h (k, v) (by simp)
    simp only [readByte, hk, if_false]
    exact ih (fun c hc => h c (by simp [hc]))

/-- A listed cell reads as its byte. -/
theorem readByte_of_mem {m : List Host.Cell} (h : Memory.wf m = true) {c : Host.Cell} (hc : c ∈ m) :
    readByte m c.1 = c.2 := by
  induction m with
  | nil => simp at hc
  | cons d m ih =>
    obtain ⟨k, v⟩ := d
    obtain ⟨h1, h2, h3⟩ := (Memory.wf_cons _ _).mp h
    rcases List.mem_cons.mp hc with rfl | hc
    · simp [readByte]
    · have hlt : k < c.1 := h1 c hc
      have hne : k ≠ c.1 := by omega
      simp only [readByte, hne, if_false]
      exact ih h3 hc

/-- The byte stored is the byte read. -/
theorem readByte_writeByte_same {m : List Host.Cell} (h : Memory.wf m = true) (a : Nat) (b : Byte) :
    readByte (writeByte m a b) a = b := by
  induction m with
  | nil => unfold writeByte; split <;> simp_all [readByte]
  | cons d m ih =>
    obtain ⟨k, v⟩ := d
    obtain ⟨h1, h2, h3⟩ := (Memory.wf_cons _ _).mp h
    have hgone : ∀ x ≤ k, readByte m x = erasedByte := fun x hx =>
      readByte_of_not_mem (fun c hc => by have := h1 c hc; simp at this; omega)
    unfold writeByte
    split
    · rename_i hlt
      split
      · rename_i hb
        have hne : k ≠ a := by omega
        simp [readByte, hne, hgone a (by omega), hb]
      · simp [readByte]
    · split
      · rename_i heq
        subst heq
        split
        · rename_i hb; rw [hgone a (by omega), hb]
        · simp [readByte]
      · rename_i hlt hne
        have hne' : k ≠ a := by omega
        simp only [readByte, hne', if_false]
        exact ih h3

/-- A store leaves every other address as it was. -/
theorem readByte_writeByte_other (m : List Host.Cell) {a x : Nat} (b : Byte) (hx : x ≠ a) :
    readByte (writeByte m a b) x = readByte m x := by
  induction m with
  | nil => unfold writeByte; split <;> simp [readByte, Ne.symm hx]
  | cons d m ih =>
    obtain ⟨k, v⟩ := d
    unfold writeByte
    split
    · split
      · rfl
      · simp [readByte, Ne.symm hx]
    · split
      · rename_i heq
        subst heq
        split <;> simp [readByte, Ne.symm hx]
      · simp only [readByte, ih]

/-- Stores leave every address they do not name as it was. -/
theorem readByte_writeCells_other (cells : List Host.Cell) (m : List Host.Cell) {x : Nat}
    (hx : x ∉ cells.map Prod.fst) : readByte (writeCells m cells) x = readByte m x := by
  induction cells generalizing m with
  | nil => rfl
  | cons c cells ih =>
    simp only [List.map_cons, List.mem_cons, not_or] at hx
    have h := ih (writeByte m c.1 c.2) hx.2
    rw [readByte_writeByte_other m c.2 hx.1] at h
    exact h

/-- Every cell stored reads back, if no address is named twice. -/
theorem readByte_writeCells_same (cells : List Host.Cell) {m : List Host.Cell} (h : Memory.wf m = true)
    (hn : (cells.map Prod.fst).Nodup) {c : Host.Cell} (hc : c ∈ cells) : readByte (writeCells m cells) c.1 = c.2 := by
  induction cells generalizing m with
  | nil => simp at hc
  | cons d cells ih =>
    obtain ⟨hd, hn'⟩ := List.nodup_cons.mp hn
    rcases List.mem_cons.mp hc with rfl | hc
    · have := readByte_writeCells_other cells (writeByte m c.1 c.2) hd
      rw [readByte_writeByte_same h] at this
      exact this
    · exact ih (writeByte_wf h d.1 d.2) hn' hc

/-- Every byte of an erased segment reads FFh (section 3.2). -/
theorem readByte_eraseSegment_inside (m : List Host.Cell) {seg a : Nat} (h : inSegment seg a = true) :
    readByte (eraseSegment m seg) a = erasedByte := by
  apply readByte_of_not_mem
  intro c hc heq
  have := List.of_mem_filter hc
  simp [heq, h] at this

/-- An erase leaves every address outside its segment as it was. -/
theorem readByte_eraseSegment_outside (m : List Host.Cell) {seg a : Nat} (h : inSegment seg a = false) :
    readByte (eraseSegment m seg) a = readByte m a := by
  induction m with
  | nil => rfl
  | cons d m ih =>
    obtain ⟨k, v⟩ := d
    by_cases hk : inSegment seg k = true
    · have hne : k ≠ a := by rintro rfl; simp [h] at hk
      have e : eraseSegment ((k, v) :: m) seg = eraseSegment m seg := by simp [eraseSegment, hk]
      rw [e, ih]
      simp [readByte, hne]
    · have e : eraseSegment ((k, v) :: m) seg = (k, v) :: eraseSegment m seg := by
        simp only [Bool.not_eq_true] at hk; simp [eraseSegment, hk]
      rw [e]
      simp only [readByte, ih]

/-! ### Runs of bytes -/

theorem cellsAt_map_snd (bytes : List Byte) (a : Nat) : (cellsAt a bytes).map Prod.snd = bytes := by
  induction bytes generalizing a with
  | nil => rfl
  | cons b bytes ih => simp [cellsAt, ih]

/-- The addresses of a run are consecutive. -/
theorem cellsAt_map_fst (bytes : List Byte) (a : Nat) : (cellsAt a bytes).map Prod.fst = List.range' a bytes.length := by
  induction bytes generalizing a with
  | nil => rfl
  | cons b bytes ih => simp [cellsAt, ih, List.range'_succ]

theorem cellsAt_length (bytes : List Byte) (a : Nat) : (cellsAt a bytes).length = bytes.length := by
  have := congrArg List.length (cellsAt_map_snd bytes a)
  simpa using this

/-- A run stores byte `i` at its first address plus `i`. -/
theorem mem_cellsAt {bytes : List Byte} {a : Nat} {c : Host.Cell} :
    c ∈ cellsAt a bytes ↔ ∃ i, bytes[i]? = some c.2 ∧ c.1 = a + i := by
  induction bytes generalizing a with
  | nil => simp [cellsAt]
  | cons b bytes ih =>
    simp only [cellsAt, List.mem_cons, ih]
    constructor
    · rintro (rfl | ⟨i, h1, h2⟩)
      · exact ⟨0, rfl, rfl⟩
      · exact ⟨i + 1, by simpa using h1, by omega⟩
    · rintro ⟨i, h1, h2⟩
      cases i with
      | zero => left; obtain ⟨x, y⟩ := c; simp_all
      | succ i => right; exact ⟨i, by simpa using h1, by omega⟩

@[simp] theorem readRange_length (m : List Host.Cell) (a n : Nat) : (readRange m a n).length = n := by
  simp [readRange]

theorem readRange_getElem? (m : List Host.Cell) (a n i : Nat) (h : i < n) :
    (readRange m a n)[i]? = some (readByte m (a + i)) := by
  simp [readRange, h]

/-! ### Segments that do not read fully erased -/

/-- Dropping repeats loses no number and adds none. -/
theorem mem_dropRepeats {x : Nat} {l : List Nat} : x ∈ dropRepeats l ↔ x ∈ l := by
  induction l with
  | nil => simp [dropRepeats]
  | cons a l ih =>
    unfold dropRepeats
    split
    · rename_i h; rw [h] at ih; simp_all
    · rename_i y ys h
      rw [h] at ih
      by_cases hay : a = y
      · rw [if_pos hay]; subst hay; simp only [List.mem_cons] at ih ⊢; tauto
      · rw [if_neg hay]; simp only [List.mem_cons] at ih ⊢; tauto

/-- A rising list without its repeats is strictly rising. -/
theorem dropRepeats_pairwise {l : List Nat} (h : l.Pairwise (· ≤ ·)) : (dropRepeats l).Pairwise (· < ·) := by
  induction l with
  | nil => simp [dropRepeats]
  | cons a l ih =>
    obtain ⟨h1, h2⟩ := List.pairwise_cons.mp h
    have hm : ∀ x ∈ dropRepeats l, a ≤ x := fun x hx => h1 x (mem_dropRepeats.mp hx)
    have hi := ih h2
    unfold dropRepeats
    split
    · simp
    · rename_i y ys hd
      rw [hd] at hm hi
      by_cases hay : a = y
      · rw [if_pos hay]; exact hi
      · rw [if_neg hay]
        refine List.pairwise_cons.mpr ⟨fun x hx => ?_, hi⟩
        have hy := hm y (by simp)
        rcases List.mem_cons.mp hx with rfl | hx
        · omega
        · have := (List.pairwise_cons.mp hi).1 x hx
          omega

/-- The segments that do not read fully erased: in rising index, and exactly those with a byte that is not FFh (R85). -/
theorem unerasedSegments_spec {m : List Host.Cell} (h : Memory.wf m = true) :
    (unerasedSegments m).Pairwise (· < ·) ∧
      ∀ i, i ∈ unerasedSegments m ↔ 4 ≤ i ∧ i < 1024 ∧ ∃ a < 32768, readByte m (i * 32768 + a) ≠ 0xFF := by
  obtain ⟨hp, hb⟩ := (Memory.wf_iff m).mp h
  refine ⟨?_, fun i => ?_⟩
  · refine List.Pairwise.filter _ (dropRepeats_pairwise ?_)
    rw [List.pairwise_map] at hp ⊢
    exact hp.imp (fun hh => Nat.div_le_div_right (Nat.le_of_lt hh))
  · simp only [unerasedSegments, List.mem_filter, mem_dropRepeats, List.mem_map, Bool.and_eq_true,
      firstData, segmentCount, segmentSize]
    constructor
    · rintro ⟨⟨c, hc, rfl⟩, h1, h2⟩
      refine ⟨of_decide_eq_true h1, of_decide_eq_true h2, c.1 % 32768, Nat.mod_lt _ (by decide), ?_⟩
      rw [Nat.div_add_mod', readByte_of_mem h hc]
      exact hb c hc
    · rintro ⟨h1, h2, a, ha, hr⟩
      refine ⟨?_, decide_eq_true h1, decide_eq_true h2⟩
      by_contra hno
      push Not at hno
      exact hr (readByte_of_not_mem (fun c hc he => hno c hc (by rw [he]; omega)))

/-- The tables a FORMAT builds in FAULTED are those of `RebuiltFrom` (R85). -/
theorem formatTables_rebuilt {m : List Host.Cell} (h : Memory.wf m = true) (bad : List Nat) :
    RebuiltFrom m bad (formatTables m bad) := by
  obtain ⟨hp, hm⟩ := unerasedSegments_spec h
  have hseg : ∀ i, 4 ≤ i → i < 1024 → (formatTables m bad).seg i =
      ⟨if (unerasedSegments m).contains i then .dirty else .free, 0, false⟩ := by
    intro i h1 h2
    obtain ⟨j, rfl⟩ := Nat.exists_eq_add_of_le h1
    simp only [Tables.seg, formatTables, rebuiltTables, firstData, segmentCount]
    rw [List.getD_eq_getElem?_getD, List.getElem?_append_right (by simp)]
    simp [show j < 1020 by omega, Nat.add_comm]
  refine ⟨⟨rfl, rfl⟩, rfl, ⟨by simp [formatTables, rebuiltTables, firstData, segmentCount], ?_⟩, ?_, ?_, hp, hm⟩
  · intro i hi
    simp only [Tables.seg, formatTables, rebuiltTables, firstData]
    rw [List.getD_eq_getElem?_getD, List.getElem?_append_left (by simpa using hi)]
    obtain rfl | rfl | rfl | rfl : i = 0 ∨ i = 1 ∨ i = 2 ∨ i = 3 := by omega
    all_goals rfl
  · intro i h1 h2 hf
    rw [hseg i h1 h2, if_neg]
    rw [List.contains_iff_mem, hm]
    rintro ⟨-, -, a, ha, hr⟩
    exact hr (hf a ha)
  · intro i h1 h2 hf
    rw [hseg i h1 h2, if_pos]
    rw [List.contains_iff_mem, hm]
    exact ⟨h1, h2, hf⟩

/-! ### What a program left -/

/-- Whatever a program leaves, it leaves in the cells it was given (R47). -/
theorem landedCells_addresses (cells : List Host.Cell) (rb : ReadBack) :
    (landedCells cells rb).map Prod.fst = cells.map Prod.fst := by
  cases rb with
  | asIntended => rfl
  | untouched => simp [landedCells]
  | differs bs =>
    have hl : (fit cells.length erasedByte bs).length = cells.length := by simp [fit]; omega
    simp only [landedCells, List.map_map]
    rw [show (Prod.fst ∘ fun (p : (Nat × Byte) × Byte) => ((p.1.1, p.2) : Nat × Byte)) = Prod.fst ∘ Prod.fst from rfl,
      ← List.map_map, List.map_fst_zip]
    omega

/-- A program has verified exactly if every one of its cells reads as it was to (R47). -/
theorem landedCells_verified {m : List Host.Cell} (hm : Memory.wf m = true) {cells : List Host.Cell}
    (hn : (cells.map Prod.fst).Nodup) (rb : ReadBack) :
    (∀ x ∈ cells, readByte (flashAfterProgram m cells rb) x.1 = x.2) ↔ landedCells cells rb = cells := by
  unfold flashAfterProgram
  constructor
  · intro h
    have hf := landedCells_addresses cells rb
    apply List.ext_getElem
    · simpa using congrArg List.length hf
    · intro i h1 h2
      have e1 : ((landedCells cells rb)[i]).1 = (cells[i]).1 := by
        have := List.getElem_of_eq hf (i := i) (by simpa using h1)
        simpa using this
      have r := readByte_writeCells_same (landedCells cells rb) hm (by rw [hf]; exact hn) (List.getElem_mem h1)
      rw [e1] at r
      exact Prod.ext e1 (r.symm.trans (h _ (List.getElem_mem h2)))
  · intro h x hx
    rw [h]
    exact readByte_writeCells_same cells hm hn hx

/-! ### Profile banks -/

/-- Contents of a bank that did not verify make no good bank (R150). -/
theorem bankAfter_bad (old : Option (List Byte)) (intended : List Byte) (rb : ReadBack)
    (h : bankAfter old intended rb ≠ some intended) : goodBank (bankAfter old intended rb) = none := by
  unfold bankAfter at h ⊢
  simp only at h ⊢
  split
  · rename_i hc
    rw [if_pos hc] at h
    rcases hc with hc | hc
    · exact absurd hc h
    · exact hc
  · rfl

/-- Contents programmed as intended are what the bank holds (R145). -/
@[simp] theorem bankAfter_asIntended (old : Option (List Byte)) (intended : List Byte) :
    bankAfter old intended .asIntended = some intended := by simp [bankAfter, areaAfter]

end Sys2Proof.Machine
end

