-- ==== Sys2Proof/Laws/Landing.lean ====
section
/-! SUPPORT. What an operation leaves in its target, in the terms of Sys2Proof/Safety.lean: one lemma says all that
`State.land` can do to the array and the fuse store, and one what a reset that stops everything leaves (R47, R60, R170). Last, the index the status word shows (R177). -/

namespace Sys2Proof.Machine

/-- A program of the array reads otherwise at its own addresses only (R47). -/
theorem readByte_flashAfterProgram_other (m : List Host.Cell) {cells : List Host.Cell} (rb : ReadBack) {x : Nat}
    (h : x ∉ cells.map Prod.fst) : readByte (flashAfterProgram m cells rb) x = readByte m x :=
  readByte_writeCells_other _ _ (by rw [landedCells_addresses]; exact h)

/-- An erase of a segment reads otherwise inside it only (R46, R47). -/
theorem readByte_flashAfterErase_other (m : List Host.Cell) (seg : Nat) (rb : ReadBack) {x : Nat}
    (h : ¬ (seg * 32768 ≤ x ∧ x < (seg + 1) * 32768)) : readByte (flashAfterErase m seg rb) x = readByte m x := by
  have ho : inSegment seg x = false := by
    rw [← Bool.not_eq_true]
    intro hi
    simp only [inSegment, Bool.and_eq_true, decide_eq_true_eq] at hi
    simp only [segBase, segmentSize] at hi
    omega
  cases rb with
  | asIntended => exact readByte_eraseSegment_outside m ho
  | untouched => rfl
  | differs bytes =>
    refine (readByte_writeCells_other _ _ ?_).trans (readByte_eraseSegment_outside m ho)
    rw [cellsAt_map_fst]
    simp only [List.mem_range'_1, segBase, segmentSize, List.length_take]
    omega

/-- Only the array and the fuse store count. -/
theorem OnlyTarget.congr {s s' t t' : State} {op : Operation} (h : OnlyTarget s t op) (h1 : s'.flash = s.flash)
    (h2 : s'.catSegs = s.catSegs) (h3 : s'.fuses = s.fuses) (k1 : t'.flash = t.flash) (k2 : t'.catSegs = t.catSegs)
    (k3 : t'.fuses = t.fuses) : OnlyTarget s' t' op := by
  cases op <;> simpa only [OnlyTarget, OnlyBytes, OnlyCatalogue, OnlyFuses, h1, h2, h3, k1, k2, k3] using h

/-- Nothing has changed. -/
theorem OnlyTarget.refl (s : State) (op : Operation) : OnlyTarget s s op := by
  cases op <;> simp [OnlyTarget, OnlyBytes, OnlyCatalogue, OnlyFuses]

/-- Whatever an operation leaves, it leaves in its own target (R47, R145, R168, R170). -/
theorem State.land_onlyTarget (s : State) (op : Operation) (rb : ReadBack) (tripped : Bool) :
    OnlyTarget s (s.land op rb tripped) op := by
  have cat : ∀ (k : Nat) (f : CatSegment → CatSegment), OnlyCatalogue s (s.setCatSeg k f) k :=
    fun k f => ⟨rfl, fun j hj => List.getElem?_set_ne (Ne.symm hj), fun _ => rfl⟩
  cases op with
  | sensor => exact ⟨rfl, rfl, fun _ _ => rfl⟩
  | program cells timing => exact ⟨rfl, rfl, fun _ h => readByte_flashAfterProgram_other _ _ h⟩
  | erase d timing => exact ⟨rfl, rfl, fun _ h => readByte_flashAfterErase_other _ _ _ h⟩
  | catErase k timing => exact cat k _
  | catPage k page g image timing => exact cat k _
  | catMark k timing => exact cat k _
  | catEntry k pos e timing => exact cat k _
  | fuseCell c =>
    refine ⟨⟨rfl, fun _ => rfl⟩, fun x hx => ?_, fun ar => ?_⟩
    · cases c <;> cases x <;> first | exact absurd rfl hx | rfl
    · cases c <;> cases ar <;> rfl
  | fuseBytes ar bytes =>
    refine ⟨⟨rfl, fun _ => rfl⟩, fun x => ?_, fun x hx => ?_⟩
    · cases ar <;> cases x <;> rfl
    · cases ar <;> cases x <;> first | exact absurd rfl hx | rfl

/-- An entry's program leaves the entry in its position, or a spent position (R60). -/
theorem State.land_catEntry (s : State) (k pos timing : Nat) (e : Entry) (rb : ReadBack) (tripped : Bool) :
    PositionHolds s (s.land (.catEntry k pos e timing) rb tripped) k pos
      (if rb = .asIntended then (if tripped then .spent false else .entry e) else .spent (leavesErased rb)) := by
  intro hk
  exact List.getElem?_set_self hk

/-- A hardware reset leaves of the array and the fuse store what an operation it stopped left in its target (R60, R170). -/
theorem State.stopOperation_onlyStopped (s : State) (rb : ReadBack) : OnlyStopped s (s.stopOperation rb) := by
  constructor
  · intro h; simp [State.stopOperation, h]
  · intro j hj
    have hs : s.stopOperation rb = { s.land j.op rb j.op.failsWhenStopped with job := none } := by
      simp [State.stopOperation, hj]
    rw [hs]
    refine ⟨(s.land_onlyTarget j.op rb _).congr rfl rfl rfl rfl rfl rfl, fun k pos e timing hop => ?_⟩
    rw [hop]
    have h := s.land_catEntry k pos timing e rb true
    by_cases hr : rb = .asIntended
    · rw [if_pos hr, if_pos rfl] at h; exact ⟨_, h⟩
    · rw [if_neg hr] at h; exact ⟨_, h⟩

/-- Only the array, the fuse store and the work in progress count. -/
theorem OnlyStopped.congr {s s' t t' : State} (h : OnlyStopped s t) (hj : s'.job = s.job) (h1 : s'.flash = s.flash)
    (h2 : s'.catSegs = s.catSegs) (h3 : s'.fuses = s.fuses) (k1 : t'.flash = t.flash) (k2 : t'.catSegs = t.catSegs)
    (k3 : t'.fuses = t.fuses) : OnlyStopped s' t' := by
  obtain ⟨ha, hb⟩ := h
  refine ⟨fun hn => ?_, fun j hs => ?_⟩
  · rw [h1, h2, h3, k1, k2, k3]; exact ha (hj ▸ hn)
  · obtain ⟨hc, hd⟩ := hb j (hj ▸ hs)
    refine ⟨hc.congr h1 h2 h3 k1 k2 k3, fun k pos e timing ho => ?_⟩
    obtain ⟨b, hp⟩ := hd k pos e timing ho
    exact ⟨b, by simpa only [PositionHolds, h2, k2] using hp⟩

/-- A hardware reset touches the array and the fuse store only where an operation stood (R170). -/
theorem State.hardwareStop_onlyStopped (s : State) (rb : ReadBack) : OnlyStopped s (s.hardwareStop rb) := by
  have hc : s.cutAttempt = { s with sensorLog := s.cutAttempt.sensorLog } := by
    unfold State.cutAttempt State.releaseBus
    repeat' split
    all_goals rfl
  have h := s.cutAttempt.stopOperation_onlyStopped rb
  unfold State.hardwareStop
  generalize s.cutAttempt.stopOperation rb = v at *
  exact h.congr (by rw [hc]) (by rw [hc]) (by rw [hc]) (by rw [hc]) rfl rfl rfl

/-- So does the mount that follows it: nothing is programmed there (R170, R171). -/
theorem State.released_onlyStopped (s : State) (rb : ReadBack) : OnlyStopped s (s.released rb) := by
  have hm : ∀ u v : State, OnlyStopped u v → OnlyStopped u { v with resetLow := false }.mountStart := by
    intro u v h
    unfold State.mountStart
    simp only
    rw [State.recordAll_frame]
    exact h.congr rfl rfl rfl rfl rfl rfl rfl
  exact hm _ _ (s.hardwareStop_onlyStopped rb)

/-- A software reset leaves a program to go on and abandons an erase: only what the erase left changes (R168). -/
theorem State.beginDrain_onlyTarget (s : State) (rb : ReadBack) {j : Job} (hj : s.job = some j) :
    OnlyTarget s (s.beginDrain rb) j.op := by
  unfold State.beginDrain
  rw [hj]
  dsimp only
  split
  · exact (s.land_onlyTarget j.op rb false).congr rfl rfl rfl rfl rfl rfl
  · split <;> exact OnlyTarget.refl s j.op

/-! ### The index the status word shows -/

/-- In RUNNING, MOUNTING and DEEP_SLEEP the active profile is shown (R176). -/
theorem State.shownProfile_of_ne {s : State} (h1 : s.dev ≠ .faulted) (h2 : s.dev ≠ .resetting) :
    s.shownProfile = s.committed.activeProfile := by
  unfold State.shownProfile
  cases hd : s.dev <;> first | exact absurd hd h1 | exact absurd hd h2 | rfl

/-- In FAULTED, and in RESETTING after it, the mount's selection is shown (R177). -/
theorem State.shownProfile_of_faultedProfile {s : State} {i : Nat} (h : s.dev = .faulted ∨ s.dev = .resetting)
    (hi : s.faultedProfile = some i) : s.shownProfile = i := by
  rcases h with h | h <;> simp [State.shownProfile, h, hi]

end Sys2Proof.Machine
end

