-- ==== Sys2Proof/Laws/PerInstr.lean ====
section
/-! SUPPORT. What is said of every command as syntax, one lemma per constructor: no table word spells it (the table
gives its rows no bits), and a row that is a request has a kind byte that names its kind and, where it is well
formed, a frame that the link can carry (R7, R26). -/

namespace Sys2Proof.Laws.Words

open Sys2Proof.Machine

/-- The kind, the tag and the parameter field of a row that is a request. -/
def request : Instr → Option (Kind × Byte × List Byte)
  | .getIdentity tag params => some (.getIdentity, tag, params)
  | .getSettings tag params => some (.getSettings, tag, params)
  | .streamInfo tag params => some (.streamInfo, tag, params)
  | .poolInfo tag params => some (.poolInfo, tag, params)
  | .readProfiles tag params => some (.readProfiles, tag, params)
  | .readEvents tag params => some (.readEvents, tag, params)
  | .releaseEvents tag params => some (.releaseEvents, tag, params)
  | .clearAlarms tag params => some (.clearAlarms, tag, params)
  | .linkStats tag params => some (.linkStats, tag, params)
  | .getTime tag params => some (.getTime, tag, params)
  | .setTime tag params _ => some (.setTime, tag, params)
  | .arm tag params => some (.arm, tag, params)
  | .abort tag params => some (.abort, tag, params)
  | .read tag params _ => some (.read, tag, params)
  | .readNext tag params _ => some (.readNext, tag, params)
  | .seek tag params _ => some (.seek, tag, params)
  | .sampleTemperature tag params _ => some (.sampleTemperature, tag, params)
  | .setTemperature tag params _ => some (.setTemperature, tag, params)
  | .writeProfile tag params _ => some (.writeProfile, tag, params)
  | .append tag params _ => some (.append, tag, params)
  | .trim tag params _ => some (.trim, tag, params)
  | .createStream tag params _ => some (.createStream, tag, params)
  | .deleteStream tag params _ => some (.deleteStream, tag, params)
  | .sealStream tag params _ => some (.sealStream, tag, params)
  | .setHold tag params _ => some (.setHold, tag, params)
  | .clearHold tag params _ => some (.clearHold, tag, params)
  | .format tag params _ => some (.format, tag, params)
  | .setOption tag params _ => some (.setOption, tag, params)
  | .commitProfiles tag params _ => some (.commitProfiles, tag, params)
  | .setOwnerLabel tag params _ => some (.setOwnerLabel, tag, params)
  | .fixGuard tag params _ => some (.fixGuard, tag, params)
  | .leadByte _ | .unknownLead _ | .overLongFrame _ _ _ | .incompleteFrame _ | .submit _ _ _ _ _ | .fetch |
  .replyDelivery | .refetch | .peek _ | .sleep _ | .enterDeepSleep | .wake _ | .wakeReady | .resetArm _ |
  .reset _ _ | .drainEnd | .hardwareReset _ _ | .resetRelease _ _ | .mountComplete _ | .tick | .sampleAgeTick |
  .requestStart _ | .arrayOperationComplete _ | .arrayWatchdogTrip _ | .fuseOperationComplete _ |
  .backgroundReclaim _ | .reclaimReconsider _ | .stretchTimeout _ | .sensorAttempt _ _ | .transactionEnd => none

/-- No table word spells the command; a request's kind byte names its kind, and its frame fits the link. -/
def Statement (i : Instr) : Prop :=
  (∀ nbits w, decodeTableWord nbits w ≠ some i) ∧
    ∀ k tag params, request i = some (k, tag, params) → i.wellFormed = true →
      kindOf k.code = some k ∧ (frameBytes k.code tag params).length ≤ 524

/-- A row that is no request. -/
theorem of_none {i : Instr} (h : request i = none) : Statement i :=
  ⟨fun _ _ => by simp [decodeTableWord], fun k tag params hr => by simp [h] at hr⟩

/-- A row that is a request. -/
theorem of_some {i : Instr} {k : Kind} {tag : Byte} {params : List Byte} (h : request i = some (k, tag, params))
    (hw : i.wellFormed = true → params.length ≤ maxParams) (hk : kindOf k.code = some k) : Statement i := by
  refine ⟨fun _ _ => by simp [decodeTableWord], fun k' tag' params' hr hf => ?_⟩
  rw [h] at hr
  obtain ⟨rfl, rfl, rfl⟩ : k = k' ∧ tag = tag' ∧ params = params' := by simpa using hr
  have := hw hf
  exact ⟨hk, by simp [frameBytes, be16, maxParams] at *; omega⟩

theorem leadByte (lead : LeadPoint) : Statement (.leadByte lead) := of_none rfl
theorem unknownLead (lead : Byte) : Statement (.unknownLead lead) := of_none rfl
theorem overLongFrame (kind : Byte) (tag : Byte) (len : Half) : Statement (.overLongFrame kind tag len) := of_none rfl
theorem incompleteFrame (lead : Byte) : Statement (.incompleteFrame lead) := of_none rfl
theorem submit (kind : Byte) (tag : Byte) (params : List Byte) (check : Half) (env : Env) :
    Statement (.submit kind tag params check env) :=
  of_none rfl
theorem fetch : Statement .fetch := of_none rfl
theorem replyDelivery : Statement .replyDelivery := of_none rfl
theorem refetch : Statement .refetch := of_none rfl
theorem peek (env : Env) : Statement (.peek env) := of_none rfl
theorem sleep (complement : Byte) : Statement (.sleep complement) := of_none rfl
theorem enterDeepSleep : Statement .enterDeepSleep := of_none rfl
theorem wake (complement : Byte) : Statement (.wake complement) := of_none rfl
theorem wakeReady : Statement .wakeReady := of_none rfl
theorem resetArm (complement : Byte) : Statement (.resetArm complement) := of_none rfl
theorem reset (complement : Byte) (readBack : ReadBack) : Statement (.reset complement readBack) := of_none rfl
theorem drainEnd : Statement .drainEnd := of_none rfl
theorem hardwareReset (longPulse : Bool) (readBack : ReadBack) : Statement (.hardwareReset longPulse readBack) :=
  of_none rfl
theorem resetRelease (supply : Bool) (readBack : ReadBack) : Statement (.resetRelease supply readBack) := of_none rfl
theorem mountComplete (env : Env) : Statement (.mountComplete env) := of_none rfl
theorem tick : Statement .tick := of_none rfl
theorem sampleAgeTick : Statement .sampleAgeTick := of_none rfl
theorem requestStart (env : Env) : Statement (.requestStart env) := of_none rfl
theorem arrayOperationComplete (readBack : ReadBack) : Statement (.arrayOperationComplete readBack) := of_none rfl
theorem arrayWatchdogTrip (readBack : ReadBack) : Statement (.arrayWatchdogTrip readBack) := of_none rfl
theorem fuseOperationComplete (readBack : ReadBack) : Statement (.fuseOperationComplete readBack) := of_none rfl
theorem backgroundReclaim (env : Env) : Statement (.backgroundReclaim env) := of_none rfl
theorem reclaimReconsider (env : Env) : Statement (.reclaimReconsider env) := of_none rfl
theorem stretchTimeout (env : Env) : Statement (.stretchTimeout env) := of_none rfl
theorem getIdentity (tag : Byte) (params : List Byte) : Statement (.getIdentity tag params) :=
  of_some (k := .getIdentity) (tag := tag) (params := params) rfl (by simp [Instr.wellFormed]) (by decide)
theorem getSettings (tag : Byte) (params : List Byte) : Statement (.getSettings tag params) :=
  of_some (k := .getSettings) (tag := tag) (params := params) rfl (by simp [Instr.wellFormed]) (by decide)
theorem streamInfo (tag : Byte) (params : List Byte) : Statement (.streamInfo tag params) :=
  of_some (k := .streamInfo) (tag := tag) (params := params) rfl (by simp [Instr.wellFormed]) (by decide)
theorem poolInfo (tag : Byte) (params : List Byte) : Statement (.poolInfo tag params) :=
  of_some (k := .poolInfo) (tag := tag) (params := params) rfl (by simp [Instr.wellFormed]) (by decide)
theorem readProfiles (tag : Byte) (params : List Byte) : Statement (.readProfiles tag params) :=
  of_some (k := .readProfiles) (tag := tag) (params := params) rfl (by simp [Instr.wellFormed]) (by decide)
theorem readEvents (tag : Byte) (params : List Byte) : Statement (.readEvents tag params) :=
  of_some (k := .readEvents) (tag := tag) (params := params) rfl (by simp [Instr.wellFormed]) (by decide)
theorem releaseEvents (tag : Byte) (params : List Byte) : Statement (.releaseEvents tag params) :=
  of_some (k := .releaseEvents) (tag := tag) (params := params) rfl (by simp [Instr.wellFormed]) (by decide)
theorem clearAlarms (tag : Byte) (params : List Byte) : Statement (.clearAlarms tag params) :=
  of_some (k := .clearAlarms) (tag := tag) (params := params) rfl (by simp [Instr.wellFormed]) (by decide)
theorem linkStats (tag : Byte) (params : List Byte) : Statement (.linkStats tag params) :=
  of_some (k := .linkStats) (tag := tag) (params := params) rfl (by simp [Instr.wellFormed]) (by decide)
theorem getTime (tag : Byte) (params : List Byte) : Statement (.getTime tag params) :=
  of_some (k := .getTime) (tag := tag) (params := params) rfl (by simp [Instr.wellFormed]) (by decide)
theorem setTime (tag : Byte) (params : List Byte) (env : Env) : Statement (.setTime tag params env) :=
  of_some (k := .setTime) (tag := tag) (params := params) rfl (by simp [Instr.wellFormed]) (by decide)
theorem arm (tag : Byte) (params : List Byte) : Statement (.arm tag params) :=
  of_some (k := .arm) (tag := tag) (params := params) rfl (by simp [Instr.wellFormed]) (by decide)
theorem abort (tag : Byte) (params : List Byte) : Statement (.abort tag params) :=
  of_some (k := .abort) (tag := tag) (params := params) rfl (by simp [Instr.wellFormed]) (by decide)
theorem read (tag : Byte) (params : List Byte) (env : Env) : Statement (.read tag params env) :=
  of_some (k := .read) (tag := tag) (params := params) rfl (by simp [Instr.wellFormed]) (by decide)
theorem readNext (tag : Byte) (params : List Byte) (env : Env) : Statement (.readNext tag params env) :=
  of_some (k := .readNext) (tag := tag) (params := params) rfl (by simp [Instr.wellFormed]) (by decide)
theorem seek (tag : Byte) (params : List Byte) (env : Env) : Statement (.seek tag params env) :=
  of_some (k := .seek) (tag := tag) (params := params) rfl (by simp [Instr.wellFormed]) (by decide)
theorem sampleTemperature (tag : Byte) (params : List Byte) (env : Env) : Statement (.sampleTemperature tag params env) :=
  of_some (k := .sampleTemperature) (tag := tag) (params := params) rfl (by simp [Instr.wellFormed]) (by decide)
theorem setTemperature (tag : Byte) (params : List Byte) (env : Env) : Statement (.setTemperature tag params env) :=
  of_some (k := .setTemperature) (tag := tag) (params := params) rfl (by simp [Instr.wellFormed]) (by decide)
theorem writeProfile (tag : Byte) (params : List Byte) (env : Env) : Statement (.writeProfile tag params env) :=
  of_some (k := .writeProfile) (tag := tag) (params := params) rfl (by simp [Instr.wellFormed]) (by decide)
theorem append (tag : Byte) (params : List Byte) (env : Env) : Statement (.append tag params env) :=
  of_some (k := .append) (tag := tag) (params := params) rfl (by simp [Instr.wellFormed]) (by decide)
theorem trim (tag : Byte) (params : List Byte) (env : Env) : Statement (.trim tag params env) :=
  of_some (k := .trim) (tag := tag) (params := params) rfl (by simp [Instr.wellFormed]) (by decide)
theorem createStream (tag : Byte) (params : List Byte) (env : Env) : Statement (.createStream tag params env) :=
  of_some (k := .createStream) (tag := tag) (params := params) rfl (by simp [Instr.wellFormed]) (by decide)
theorem deleteStream (tag : Byte) (params : List Byte) (env : Env) : Statement (.deleteStream tag params env) :=
  of_some (k := .deleteStream) (tag := tag) (params := params) rfl (by simp [Instr.wellFormed]) (by decide)
theorem sealStream (tag : Byte) (params : List Byte) (env : Env) : Statement (.sealStream tag params env) :=
  of_some (k := .sealStream) (tag := tag) (params := params) rfl (by simp [Instr.wellFormed]) (by decide)
theorem setHold (tag : Byte) (params : List Byte) (env : Env) : Statement (.setHold tag params env) :=
  of_some (k := .setHold) (tag := tag) (params := params) rfl (by simp [Instr.wellFormed]) (by decide)
theorem clearHold (tag : Byte) (params : List Byte) (env : Env) : Statement (.clearHold tag params env) :=
  of_some (k := .clearHold) (tag := tag) (params := params) rfl (by simp [Instr.wellFormed]) (by decide)
theorem format (tag : Byte) (params : List Byte) (env : Env) : Statement (.format tag params env) :=
  of_some (k := .format) (tag := tag) (params := params) rfl (by simp [Instr.wellFormed]) (by decide)
theorem setOption (tag : Byte) (params : List Byte) (env : Env) : Statement (.setOption tag params env) :=
  of_some (k := .setOption) (tag := tag) (params := params) rfl (by simp [Instr.wellFormed]) (by decide)
theorem commitProfiles (tag : Byte) (params : List Byte) (env : Env) : Statement (.commitProfiles tag params env) :=
  of_some (k := .commitProfiles) (tag := tag) (params := params) rfl (by simp [Instr.wellFormed]) (by decide)
theorem setOwnerLabel (tag : Byte) (params : List Byte) (env : Env) : Statement (.setOwnerLabel tag params env) :=
  of_some (k := .setOwnerLabel) (tag := tag) (params := params) rfl (by simp [Instr.wellFormed]) (by decide)
theorem fixGuard (tag : Byte) (params : List Byte) (env : Env) : Statement (.fixGuard tag params env) :=
  of_some (k := .fixGuard) (tag := tag) (params := params) rfl (by simp [Instr.wellFormed]) (by decide)
theorem sensorAttempt (run : BusRun) (env : Env) : Statement (.sensorAttempt run env) := of_none rfl
theorem transactionEnd : Statement .transactionEnd := of_none rfl

end Sys2Proof.Laws.Words
end

