-- ==== Sys2Proof/Tests/Slice0.lean ====
section
/-! SUPPORT. Tests: the checks of WellFormed on ill-formed terms, the worked examples of the spec, one step of each
command on a small state, and for every statement a concrete state and operands that meet its hypotheses. Expected
results are the spec's own (the section or rule is named) or computed from its rules by hand. -/

namespace Sys2Proof.Tests

set_option Elab.async false

open Sys2Proof.Machine

/-! ### Small states -/

/-- The state a command leaves. -/
def after (c : Instr) (s : State) : State :=
  match exec c s with
  | .next t => t
  | .fault _ => s
  | .refused _ => s

/-- GUARD# high and a die at 25 degrees Celsius. -/
def env : Env := ⟨true, 25000⟩

/-- Stream 0: OPEN, WRAP, 64-byte slots, records 1 and 2 retained in segment 4. -/
def stream0 : Machine.Stream :=
  { Stream.absent with
    state := .opened, slotSize := 64, retention := .wrap, quota := 2, start := 1, oldest := 1, next := 3,
    recordedNext := 1, segs := [⟨4, 1, 1⟩], writePos := 2, cursor := 1 }

/-- Four system segments and six data segments: one LINKED, four FREE, one DIRTY. -/
def segments : List SegEntry :=
  List.replicate 4 ⟨.system, 0, false⟩ ++
    [⟨.linked, 2, false⟩, ⟨.free, 3, false⟩, ⟨.free, 1, false⟩, ⟨.free, 1, false⟩, ⟨.free, 5, false⟩,
     ⟨.dirty, 7, false⟩]

/-- Tables with these streams. -/
def tables (streams : List Machine.Stream) : Tables := ⟨streams, segments, [9], [true, true, true, true], Settings.factory⟩

/-- A running device with these streams: a sample of 25 degrees Celsius from the die, an active catalogue segment. -/
def device (streams : List Machine.Stream) : State :=
  { State.reset with
    dev := .running
    committed := { Committed.fresh with
      tables := tables streams
      cat := ⟨some 0, 10, 1, false⟩
      sample := ⟨some 0x0064, some .internal, 0, false, false, 0, false⟩ }
    poolLow := true
    poolLowArmed := false }

/-- A running device with stream 0. -/
def running : State := device [stream0]

/-- The same with the two records of stream 0 in the array: bodies left out, commit marks programmed. -/
def marked : State := { running with flash := [(slotBase 4 64 0 + 7, 0x5A), (slotBase 4 64 1 + 7, 0x5A)] }

/-- A request in a context. -/
def request (k : Kind) (params : List Byte) (acceptance : Nat) : Request := ⟨0x77, k, params, false, acceptance⟩

/-- The committed state of `running` with a different guard mode. -/
def guarded : State :=
  { running with committed := { running.committed with tables := { tables [stream0] with
      settings := { Settings.factory with guardMode := 0x0001 } } } }

/-- GUARD# low. -/
def envLow : Env := ⟨false, 25000⟩

/-- A running device asleep. -/
def asleep : State := { running with dev := .deepSleep }

/-- A running device held in reset. -/
def inReset : State := { running with resetLow := true }

/-! ### WellFormed: an ill-formed term for each check -/

/-- One byte more than a frame can carry (R7). -/
def long : List Byte := List.replicate 521 0x00

theorem test_wellFormed_refuses_link_operands :
    (Instr.unknownLead 0xA1).wellFormed = false ∧ (Instr.overLongFrame 0x09 0x00 520).wellFormed = false ∧
      (Instr.incompleteFrame 0xA2).wellFormed = false ∧ (Instr.submit 0x09 0x00 long 0x0000 env).wellFormed = false := by
  decide +kernel

theorem test_wellFormed_refuses_long_immediate :
    [Instr.getIdentity 0 long, .getSettings 0 long, .streamInfo 0 long, .poolInfo 0 long, .readProfiles 0 long,
     .readEvents 0 long, .releaseEvents 0 long, .clearAlarms 0 long, .linkStats 0 long, .getTime 0 long,
     .setTime 0 long env, .arm 0 long, .abort 0 long].all (fun i => !i.wellFormed) = true := by
  decide +kernel

theorem test_wellFormed_refuses_long_media :
    [Instr.read 0 long env, .readNext 0 long env, .seek 0 long env, .sampleTemperature 0 long env,
     .setTemperature 0 long env, .writeProfile 0 long env, .append 0 long env, .trim 0 long env,
     .createStream 0 long env, .deleteStream 0 long env, .sealStream 0 long env, .setHold 0 long env,
     .clearHold 0 long env, .format 0 long env, .setOption 0 long env, .commitProfiles 0 long env,
     .setOwnerLabel 0 long env, .fixGuard 0 long env].all (fun i => !i.wellFormed) = true := by
  decide +kernel

theorem test_wellFormed_accepts_boundary :
    (Instr.overLongFrame 0x09 0x00 521).wellFormed = true ∧ (Instr.unknownLead 0x00).wellFormed = true ∧
      (Instr.incompleteFrame 0xC4).wellFormed = true ∧
      (Instr.submit 0x09 0x00 (List.replicate 520 0x00) 0x0000 env).wellFormed = true := by decide +kernel

/-! ### The worked examples of the spec -/

/-- R3's two examples, and the checks of the LINK_STATS example (chapter 1). -/
theorem test_check_examples :
    check [] = 0xFFFF ∧ check [0x00, 0x00] = 0x800D ∧ checkBytes [0x00, 0x00] = [0x80, 0x0D] ∧
      check [0x09, 0x05, 0x00, 0x00] = 0xB460 ∧
      check [0x05, 0x09, 0x00, 0x00, 0x03, 0x00, 0x00, 0x00] = 0x675E := by decide +kernel

/-- The SUBMIT of LINK_STATS under tag 05h (chapter 1): turnaround, ACCEPTED, seven contexts FREE. -/
theorem test_submit_linkStats_example :
    (after (.submit 0x09 0x05 [] 0xB460 env) running).sdo = .drive [0xFF, 0x00, 0x07] 0xFF := by decide +kernel

/-- The same with 61h as the last check byte: FRAME_ERROR, one frame error, eight contexts FREE. -/
theorem test_submit_frameError_example :
    let t := after (.submit 0x09 0x05 [] 0xB461 env) running
    t.sdo = .drive [0xFF, 0x02, 0x08] 0xFF ∧ t.frameErrors = 1 ∧ freeCount t.contexts = 8 ∧ t.alarms = 0x08 := by
  decide +kernel

/-- Collecting its reply (chapter 1): the FETCH, and then the REFETCH, drive positions 2 to 12 of the example. -/
theorem test_fetch_linkStats_example :
    let s := after .transactionEnd (after (.submit 0x09 0x05 [] 0xB460 env) running)
    let t := after .fetch s
    let u := after .transactionEnd (after .replyDelivery t)
    t.sdo = .drive [0x01, 0x05, 0x09, 0x00, 0x00, 0x03, 0x00, 0x00, 0x00, 0x67, 0x5E] 0xFF ∧ u.contexts = running.contexts ∧
      (after .refetch u).sdo = .drive [0x01, 0x05, 0x09, 0x00, 0x00, 0x03, 0x00, 0x00, 0x00, 0x67, 0x5E] 0xFF ∧
      (after .fetch u).sdo = .drive [0x00] 0xFF := by decide +kernel

/-- Reading a status word (section 10.1): RUNNING, executing, five FREE, two DONE, an event, the time unset,
MEDIA_FAULT_SEEN: 3452A001h. -/
theorem test_statusWord_example :
    let r := request .read [] 0
    ({ running with
        contexts := [.held r .executing, .held r (.done 0 .ok []), .held r (.done 1 .ok []), .free, .free, .free, .free, .free]
        events := [⟨0, raised .mounted ⟨0, true⟩ 0 0⟩]
        alarms := alarmMediaFault
        poolLow := false }.statusWord true false) = 0x3452A001 := by decide +kernel

/-- Converting sensor words (section 6.2.1). -/
theorem test_sensorWord_examples :
    convertWord 0 0x1910 = 100 ∧ convertWord 0 0xE700 = -100 ∧ convertWord 0 0xFFF0 = -1 ∧ convertWord 0 0x0990 = 38 ∧
      convertWord 1 0x0064 = 100 ∧ convertWord 0 0x4B00 = 300 ∧ convertWord 0 0x7FF0 = 511 ∧
      plausible (convertWord 0 0x7FF0) = true ∧ plausible (convertWord 1 0x0A00) = false := by decide +kernel

/-- "DOORLOG1" (section 4.3). -/
def doorLog : List Byte := [0x44, 0x4F, 0x4F, 0x52, 0x4C, 0x4F, 0x47, 0x31]

/-- The two CREATE_STREAM parameter fields of section 4.3, and a third with WRAP and quota 1. -/
theorem test_createStream_examples :
    parseCreate ([0x03, 0x00, 0x01, 0x00, 0x28, 0x03, 0x00, 0x00, 0x00, 0x01] ++ doorLog) =
      some (3, newStream 64 .halt 40 0x03 1 (some doorLog)) ∧
    parseCreate [0x04, 0x02, 0x00, 0x00, 0x08, 0x00, 0x00, 0x00, 0x03, 0xE8] =
      some (4, newStream 256 .wrap 8 0x00 1000 none) ∧
    parseCreate [0x05, 0x02, 0x00, 0x00, 0x01, 0x00, 0x00, 0x00, 0x03, 0xE8] = none := by decide +kernel

/-- Records of stream 3 of section 4.3 take at most 48 payload bytes, and its 40 segments 20160 records. -/
theorem test_capacity_example :
    (newStream 64 .halt 40 0x03 1 (some doorLog)).maxPayload = 48 ∧ 40 * slotsPerSegment 64 = 20160 ∧
      slotsPerSegment 256 = 126 := by decide +kernel

/-- Deleting a stream with a suspect segment (section 4.5). -/
theorem test_delete_example :
    let st : Machine.Stream := { stream0 with segs := [⟨4, 1, 1⟩, ⟨5, 2, 5⟩, ⟨6, 3, 9⟩] }
    let t : Tables := { tables [st] with segs := segments.set 5 ⟨.linked, 0, true⟩ }
    (applyEntry t (.deleted 0)).dirty = [9, 4, 6] ∧ ((applyEntry t (.deleted 0)).seg 5).state = .retired ∧
      entryEvents t ⟨7, false⟩ (.deleted 0) = [⟨.segmentRetired, ⟨7, false⟩, 0x04, 5⟩] ∧
      releaseCounts t [4, 5, 6] = [0x00, 0x02, 0x00, 0x01] := by decide +kernel

/-- Draining and trimming an audit stream (section 5.5): what a TRIM to 1300 releases of stream 3, OPEN and SEALED. -/
theorem test_trim_example :
    releasedBy 1300 1300 false [⟨410, 1, 1⟩, ⟨52, 2, 505⟩, ⟨733, 3, 1009⟩] = [410, 52] ∧
      releasedBy 1300 1300 true [⟨410, 1, 1⟩, ⟨52, 2, 505⟩, ⟨733, 3, 1009⟩] = [410, 52, 733] := by decide +kernel

/-- The entry of section 11.5: P5 from 0 up to 10 degrees Celsius with classes 2. -/
theorem test_writeProfile_example :
    parseWriteProfile [0x05, 0x01, 0x00, 0x00, 0x00, 0x28, 0x01, 0x02, 0x02] =
      some (5, ⟨true, 0, 40, true, 2, 2⟩) := by decide +kernel

/-- What survives between ARM and its target (section 7.3.1). -/
theorem test_arm_examples :
    let armed := after .transactionEnd (after (.arm 0x01 [0x33, 0x02]) running)
    armed.armLatch = some ⟨.deleteStream, 0x02⟩ ∧
      (after (.peek env) armed).armLatch = some ⟨.deleteStream, 0x02⟩ ∧
      (after (.resetArm 0x3C) armed).armLatch = some ⟨.deleteStream, 0x02⟩ ∧
      (after (.streamInfo 0x02 [0x02]) armed).armLatch = none ∧ (after (.abort 0x02 [0x00, 0x09]) armed).armLatch = none ∧
      (after (.arm 0x02 [0x20, 0x00]) armed).armLatch = some ⟨.deleteStream, 0x02⟩ ∧
      (after (.arm 0x02 [0x33, 0x03]) armed).armLatch = some ⟨.deleteStream, 0x03⟩ := by decide +kernel

/-- The state after reset is what steps 1 to 5 of the mount make of a delivered part (R64, R65, R171). -/
theorem test_reset_is_mountStart : State.reset.mountStart = State.reset := by decide +kernel

/-- The first mount of a delivered part ends in RUNNING with MOUNTED of a fresh device (R173), and the status word
of a device just mounted with that event listed: 2480A000h. -/
theorem test_first_mount :
    let t := after (.mountComplete env) State.reset
    t.dev = .running ∧ t.events.map Event.what = [⟨.mounted, ⟨0, true⟩, 0x00, 0x00010000⟩] ∧
      t.statusWord true false = 0x2480A000 := by decide +kernel

/-- The MOUNTED entry of section 11.1 as READ_EVENTS gives it. -/
theorem test_event_bytes_example :
    eventBytes ⟨0, raised .mounted ⟨3, true⟩ 0 3⟩ =
      [0x00, 0x00, 0x01, 0x00, 0x00, 0x00, 0x03, 0x01, 0x00, 0x00, 0x00, 0x00, 0x03] := by decide +kernel

/-- Bring-up (section 11.1): a word in MOUNTING with an event listed is 0480A000h. -/
theorem test_statusWord_mounting :
    ({ State.reset with events := [⟨0, raised .fuseFault ⟨0, true⟩ 1 0⟩] }).statusWord true false = 0x0480A000 := by
  decide +kernel

/-! ### One step of each command -/

/-- R17: a RESET_ARM, and then a RESET as the very next transaction, acts; after a PEEK between them it is refused. -/
theorem test_reset_needs_arming :
    let armed := after .transactionEnd (after (.resetArm 0x3C) running)
    (after (.reset 0x3B .untouched) armed).dev = .resetting ∧ (after (.reset 0x3B .untouched) armed).sdo = .drive [0x00] 0xFF ∧
      (after (.reset 0x3B .untouched) (after .transactionEnd (after (.peek env) armed))).sdo = .drive [0x01] 0xFF ∧
      (after (.resetArm 0x3D) running).unknownLeads = 1 := by decide +kernel

/-- R168, R171: the drain of an idle device ends in MOUNTING with reports cleared. -/
theorem test_drainEnd_mounts :
    let t := after .drainEnd { running with dev := .resetting, alarms := 0x09 }
    t.dev = .mounting ∧ t.alarms = 0 ∧ t.committed.sample = Sample.initial := by decide +kernel

/-- R5, R6, R9: an unknown lead counts one, saturating; CS# rising after A1h counts one; after A4h none. -/
theorem test_link_statistics :
    (after (.unknownLead 0x00) running).unknownLeads = 1 ∧
      (after (.unknownLead 0x00) { running with unknownLeads := 0xFF }).unknownLeads = 0xFF ∧
      (after (.incompleteFrame 0xA1) running).incompleteFrames = 1 ∧
      (after .transactionEnd (after (.leadByte ⟨0xC1, true⟩) running)).incompleteFrames = 1 ∧
      (after .transactionEnd (after (.leadByte ⟨0xA4, true⟩) running)).incompleteFrames = 0 := by decide +kernel

/-- R8: a length of 521 is answered FRAME_ERROR in every position. -/
theorem test_overLong_frame :
    let t := after (.overLongFrame 0x30 0x01 521) running
    t.sdo = .drive [] 0x02 ∧ t.frameErrors = 1 ∧ t.alarms = 0x08 := by decide +kernel

/-- R159 to R162: SLEEP answers DONE; the entry follows; the device asleep hears no FETCH; WAKE returns no byte. -/
theorem test_sleep_and_wake :
    let pending := after .transactionEnd (after (.sleep 0x3E) running)
    let sleeping := after .enterDeepSleep pending
    let awake := after (.wake 0x3D) sleeping
    pending.sleepPending = true ∧ sleeping.dev = .deepSleep ∧ (after .fetch sleeping).sdo = .highZ ∧
      awake.dev = .running ∧ awake.timeUnset = true ∧ awake.committed.sample.dueMark = true ∧ awake.sdo = .highZ ∧
      awake.ready = false ∧ (after .wakeReady awake).ready = true := by decide +kernel

/-- R159: a second SLEEP is IGNORED; one with a request outstanding is REFUSED; R162: WAKE in RUNNING is IGNORED. -/
theorem test_sleep_results :
    (after (.sleep 0x3E) { running with sleepPending := true }).sdo = .drive [0x02] 0xFF ∧
      (after (.sleep 0x3E) { running with contexts := [.held (request .read [] 0) .queued] }).sdo = .drive [0x01] 0xFF ∧
      (after (.wake 0x3D) running).sdo = .drive [0x02] 0xFF := by decide +kernel

/-- R170: RESET# low clears what it names; RESET# high mounts. -/
theorem test_hardware_reset :
    let low := after (.hardwareReset true .untouched) { running with tick := 9, alarms := 1, resetArm := true }
    low.resetLow = true ∧ low.tick = 0 ∧ low.timeUnset = true ∧ low.alarms = 0 ∧ low.resetArm = false ∧
      (after (.resetRelease false .untouched) low).dev = .mounting ∧
      (after (.resetRelease true .untouched) low).resetLow = true := by decide +kernel

/-- R163: the counter wraps; it stands in DEEP_SLEEP. R112: the age saturates at FFFFFFFEh. -/
theorem test_time :
    (after .tick { running with tick := 0xFFFFFFFF }).tick = 0 ∧ (after .tick { asleep with tick := 5 }).tick = 5 ∧
      (Sample.aged ⟨some 0, some .host, 0xFFFFFFFE, false, false, 0, false⟩).age = 0xFFFFFFFE ∧
      (after .sampleAgeTick running).committed.sample.age = 1 := by decide +kernel

/-- R165: SET_TIME answers the counter and TIME_UNSET as they were; under the guard it is GUARDED. -/
theorem test_setTime :
    let t := after (.setTime 0x01 [0x00, 0x00, 0x01, 0x02] env) { running with tick := 7 }
    t.tick = 0x0102 ∧ t.timeUnset = false ∧ (t.contexts.getD 0 .free).reply? = some ⟨0x01, .setTime, .ok, [0, 0, 0, 7, 1]⟩ ∧
      (after (.setTime 0x01 [0, 0, 1, 2] envLow) guarded).tick = 0 := by decide +kernel

/-- R166: GET_TIME gives the counter, TIME_UNSET and the tick period. -/
theorem test_getTime :
    ((after (.getTime 0x01 []) { running with tick := 0x01020304, timeUnset := false }).contexts.getD 0 .free).reply? =
      some ⟨0x01, .getTime, .ok, [0x01, 0x02, 0x03, 0x04, 0x00, 0x00, 0x0A]⟩ := by decide +kernel

/-- R20: LINK_STATS answers the three counters and zeroes them. -/
theorem test_linkStats :
    let t := after (.linkStats 0x01 []) { running with frameErrors := 1, incompleteFrames := 2, unknownLeads := 3 }
    (t.contexts.getD 0 .free).reply? = some ⟨0x01, .linkStats, .ok, [1, 2, 3]⟩ ∧ t.frameErrors = 0 ∧
      t.incompleteFrames = 0 ∧ t.unknownLeads = 0 := by decide +kernel

/-- R153: the identity record, its check, no guard fixed, FRESH, factory, ABSENT, and the label as sixteen 00h. -/
theorem test_getIdentity :
    ((after (.getIdentity 0x01 []) running).contexts.getD 0 .free).reply? =
      some ⟨0x01, .getIdentity, .ok, [0x47, 0x24, 0x04, 0x00, 0x42, 0, 0, 0, 0, 0, 0, 0, 0, 0x00, 0x00, 0x00, 0x00, 0x00] ++
        List.replicate 16 0x00⟩ := by decide +kernel

/-- R154, R157: the factory settings. -/
theorem test_getSettings :
    ((after (.getSettings 0x01 []) running).contexts.getD 0 .free).reply? =
      some ⟨0x01, .getSettings, .ok, [0x00, 0x00, 0x00, 0x01, 0x00, 0x4C, 0x00, 0x00, 0x00, 0x00, 0x03, 0xE8, 0x00, 0x0A, 0x07,
        0xBF, 0x00, 0x10]⟩ := by decide +kernel

/-- R67 by hand: 4 FREE, 1 DIRTY, 1 LINKED, 0 RETIRED, 4 usable, erase counts 1 to 7, fill 10 of 768. -/
theorem test_poolInfo :
    ((after (.poolInfo 0x01 []) running).contexts.getD 0 .free).reply? =
      some ⟨0x01, .poolInfo, .ok, [0, 4, 0, 1, 0, 1, 0, 0, 4, 0, 0, 0, 1, 0, 0, 0, 7, 0, 10, 0x03, 0x00]⟩ := by
  decide +kernel

/-- R86, R87: an ABSENT stream is 43 bytes 00h after its id, and the summary has ten bytes a stream. -/
theorem test_streamInfo :
    ((after (.streamInfo 0x01 [0x05]) running).contexts.getD 0 .free).reply? =
      some ⟨0x01, .streamInfo, .ok, 0x05 :: List.replicate 43 0x00⟩ ∧
    ((after (.streamInfo 0x01 [0xFF]) running).contexts.getD 0 .free).reply?.map (fun r => (r.payload.length, r.payload.take 10)) =
      some (160, [0x00, 0x01, 0x00, 0x00, 0, 0, 0, 2, 0, 1]) := by decide +kernel

/-- R127: the table's 64 bytes, the active index, bank state and origin; entry 1 is below -30 degrees Celsius. -/
theorem test_readProfiles :
    ((after (.readProfiles 0x01 []) running).contexts.getD 0 .free).reply?.map (fun r => (r.payload.length, (r.payload.drop 8).take 8)) =
      some (67, [0x01, 0x80, 0x00, 0xFF, 0x88, 0x00, 0x00, 0x00]) := by decide +kernel

/-- R182, R183: an event is read and released; the overflow counter is cleared on request. -/
theorem test_events :
    let s := { running with events := [⟨4, raised .mounted ⟨3, true⟩ 0 3⟩], overflow := 2 }
    ((after (.readEvents 0x01 [0x08]) s).contexts.getD 0 .free).reply?.map Reply.payload =
      some ([0x01, 0x01, 0x02] ++ [0x00, 0x04, 0x01, 0x00, 0x00, 0x00, 0x03, 0x01, 0x00, 0x00, 0x00, 0x00, 0x03]) ∧
    (after (.releaseEvents 0x01 [0x01, 0x01]) s).events = [] ∧ (after (.releaseEvents 0x01 [0x01, 0x01]) s).overflow = 0 := by
  decide +kernel

/-- R179: masked alarms are cleared, the others stand. -/
theorem test_clearAlarms :
    let t := after (.clearAlarms 0x01 [0x09]) { running with alarms := 0x2B }
    t.alarms = 0x22 ∧ (t.contexts.getD 0 .free).reply? = some ⟨0x01, .clearAlarms, .ok, [0x2B, 0x22]⟩ := by decide +kernel

/-- R43: an ABORT of everything ends the QUEUED request, with the lower completion number, and counts it. -/
theorem test_abort :
    let t := after (.abort 0x01 [0x01, 0x00]) { running with contexts := [.held (request .read [] 0) .queued, .free] }
    t.contexts = [.held (request .read [] 0) (.done 0 .aborted []),
      .held ⟨0x01, .abort, [0x01, 0x00], false, 0⟩ (.done 1 .ok [0x01])] := by decide +kernel

/-- R103: READ below oldest, and at next, answers oldest and next. -/
theorem test_read_bounds :
    ((after (.read 0x01 [0x00, 0, 0, 0, 0] env) running).contexts.getD 0 .free).reply? =
      some ⟨0x01, .read, .notRetained, [0, 0, 0, 1, 0, 0, 0, 3]⟩ ∧
    ((after (.read 0x01 [0x00, 0, 0, 0, 3] env) running).contexts.getD 0 .free).reply? =
      some ⟨0x01, .read, .notYet, [0, 0, 0, 1, 0, 0, 0, 3]⟩ := by decide +kernel

/-- R106: a slot with its mark alone is a damaged record, given with its slot; R108: the cursor passes it. -/
theorem test_readNext_damaged :
    let t := after (.readNext 0x01 [0x00] env) marked
    (t.contexts.getD 0 .free).reply?.map (fun r => (r.status, r.payload.length, r.payload.take 8)) =
      some (.damagedData, 72, [0, 0, 0, 0, 0, 0, 0, 1]) ∧ (t.committed.tables.stream 0).cursor = 2 := by decide +kernel

/-- R109: SEEK clamps to next. -/
theorem test_seek :
    let t := after (.seek 0x01 [0x00, 0, 0, 0, 9] env) running
    (t.contexts.getD 0 .free).reply? = some ⟨0x01, .seek, .clamped, [0, 0, 0, 3]⟩ ∧
      (t.committed.tables.stream 0).cursor = 3 := by decide +kernel

/-- R118, R128: an internal sample of 31 degrees Celsius is 007Ch. -/
theorem test_sampleTemperature :
    ((after (.sampleTemperature 0x01 [] ⟨true, 31000⟩) running).contexts.getD 0 .free).reply?.map (fun r => r.payload.take 5) =
      some [0x01, 0x00, 0x00, 0x7C, 0x01] := by decide +kernel

/-- R129: SET_TEMPERATURE is WRONG_SOURCE unless HOST is configured. -/
theorem test_setTemperature :
    ((after (.setTemperature 0x01 [0x00, 0x64] env) running).contexts.getD 0 .free).reply? =
      some ⟨0x01, .setTemperature, .wrongSource, []⟩ := by decide +kernel

/-- R122, R124: the factory table below freezing selects entry 2, at 85 degrees Celsius entry 3, at 105 entry 4. -/
theorem test_selection :
    selectIndex factoryProfiles (some 0xFFFC) = 2 ∧ selectIndex factoryProfiles (some 0x0154) = 3 ∧
      selectIndex factoryProfiles (some 0x01A4) = 4 ∧ selectIndex factoryProfiles (some 0x0064) = 0 ∧
      selectIndex factoryProfiles (some 0xFF87) = 1 := by decide +kernel

/-- R119, R120: the third failure of an external sensor enters fallback with the internal sample (section 6.3.1). -/
theorem test_fallback_example :
    let c : Committed := { running.committed with
      tables := { tables [stream0] with settings := { Settings.factory with sensorSource := 0x0000 } }
      sample := ⟨some 0x0064, some .external, 1500, true, false, 2, false⟩ }
    let r := attemptFails c ⟨5, false⟩ .addressNack 0 ⟨true, 31000⟩
    r.1.sample = ⟨some 0x007C, some .internal, 0, false, false, 0, true⟩ ∧
      r.2 = [⟨.sensorFault, ⟨5, false⟩, 0x01, 0x00030000⟩, ⟨.sensorFallback, ⟨5, false⟩, 0x01, 0x0000007C⟩] := by
  decide +kernel

/-- R90, R100: an APPEND of two bytes programs its body and its mark and is committed in slot 2 of segment 4. -/
theorem test_append :
    let s1 := after (.append 0x01 [0x00, 0x00, 0xAA, 0xBB] env) running
    let s2 := after (.arrayOperationComplete .asIntended) s1
    let s3 := after (.arrayOperationComplete .asIntended) s2
    (s1.contexts.getD 0 .free).isExecuting = true ∧ readRange s3.flash (slotBase 4 64 2) 12 =
      [0x00, 0x00, 0x00, 0x03, 0x00, 0x02, 0x04, 0x5A, 0xAA, 0xBB, 0xFF, 0xFF] ∧
    (s3.contexts.getD 0 .free).reply? = some ⟨0x01, .append, .ok,
      [0, 0, 0, 3, 0, 0, 0, 0, 0x00, 0x64, 0x04, 0x00, 0, 0, 0, 0, 0, 4, 0, 2]⟩ ∧
    (s3.committed.tables.stream 0).next = 4 := by decide +kernel

/-- R48, R99: a body program stopped by the watchdog makes the segment suspect and the slot a void. -/
theorem test_append_watchdog :
    let s1 := after (.append 0x01 [0x00, 0x00, 0xAA] env) running
    let s2 := after (.arrayWatchdogTrip (.differs [0x00])) s1
    let s3 := after (.arrayOperationComplete .asIntended) s2
    s2.job.map Job.op = some (.catEntry 0 10 (.suspect 4) 1) ∧
      (s3.job.map (fun j => (j.task.work.tables.seg 4).suspect)) = some true ∧
      s3.job.map (fun j => (j.task.work.tables.stream 0).writePos) = some 3 := by decide +kernel

/-- R48, R60, R63: the segment is closed at once, though no position is left for its suspect entry. -/
theorem test_append_closesUnmarked :
    let full := { running with committed := { running.committed with
      tables := { running.committed.tables with usable := [true, false, false, false] }, cat := ⟨some 0, 768, 1, false⟩ } }
    let t := after (.arrayWatchdogTrip (.differs [0x00])) (after (.append 0x01 [0x00, 0x00, 0xAA] env) full)
    let tb := t.committed.tables
    (t.contexts.getD 0 .free).reply?.map Reply.status = some .mediaFault ∧ full.committed.tables.freeSlots stream0 = 502 ∧
      tb.freeSlots (tb.stream 0) = 0 ∧ (tb.seg 4).suspect = false ∧ (tb.stream 0).writePos = 3 := by decide +kernel

/-- R111: TRIM to next keeps the newest segment of an OPEN stream. -/
theorem test_trim :
    let t := after (.arrayOperationComplete .asIntended) (after (.trim 0x01 [0x00, 0, 0, 0, 3] env) running)
    (t.contexts.getD 0 .free).reply? = some ⟨0x01, .trim, .ok, [0, 0, 0, 3, 0, 0, 0, 0]⟩ ∧
      (t.committed.tables.stream 0).oldest = 3 ∧ (t.committed.tables.stream 0).segs = [⟨4, 1, 1⟩] := by decide +kernel

/-- R77, R78: stream 4 of section 4.3 is created by one entry, the payload 04h 00h 00h 03h E8h; a second is refused. -/
theorem test_createStream :
    let s := device (stream0 :: List.replicate 4 Stream.absent)
    let t := after (.arrayOperationComplete .asIntended)
      (after (.createStream 0x01 [0x04, 0x02, 0x00, 0x00, 0x08, 0x00, 0x00, 0x00, 0x03, 0xE8] env) s)
    (t.contexts.getD 0 .free).reply? = some ⟨0x01, .createStream, .ok, [0x04, 0x00, 0x00, 0x03, 0xE8]⟩ ∧
      (t.committed.tables.stream 4).slotSize = 256 ∧
      ((after (.createStream 0x02 [0x04, 0x02, 0x00, 0x00, 0x08, 0x00, 0x00, 0x00, 0x03, 0xE8] env)
        (after .transactionEnd t)).contexts.getD 1 .free).reply? = some ⟨0x02, .createStream, .streamExists, []⟩ := by
  decide +kernel

/-- R82: an armed DELETE_STREAM makes the stream's segment DIRTY. -/
theorem test_deleteStream :
    let t := after (.arrayOperationComplete .asIntended)
      (after (.deleteStream 0x01 [0x00] env) { running with armLatch := some ⟨.deleteStream, 0x00⟩ })
    (t.contexts.getD 0 .free).reply? = some ⟨0x01, .deleteStream, .ok, [0, 1, 0, 0]⟩ ∧
      t.committed.tables.dirty = [9, 4] ∧ (t.committed.tables.stream 0).state = .absent := by decide +kernel

/-- R79: SEAL_STREAM answers next; sealed again it is STREAM_SEALED. -/
theorem test_sealStream :
    let t := after (.arrayOperationComplete .asIntended) (after (.sealStream 0x01 [0x00] env) running)
    (t.contexts.getD 0 .free).reply? = some ⟨0x01, .sealStream, .ok, [0, 0, 0, 3]⟩ ∧
      ((after (.sealStream 0x02 [0x00] env) (after .transactionEnd t)).contexts.getD 1 .free).reply? =
        some ⟨0x02, .sealStream, .streamSealed, []⟩ := by decide +kernel

/-- R137, R138: a hold set and cleared. -/
theorem test_holds :
    let t := after (.arrayOperationComplete .asIntended) (after (.setHold 0x01 [0x00] env) running)
    let u := after (.arrayOperationComplete .asIntended) (after (.clearHold 0x02 [0x00] env) (after .transactionEnd t))
    (t.committed.tables.stream 0).hold = true ∧ (u.committed.tables.stream 0).hold = false ∧
      (u.contexts.getD 1 .free).reply? = some ⟨0x02, .clearHold, .ok, [0x00, 0x01]⟩ := by decide +kernel

/-- R83: an armed FORMAT of a running device makes every stream ABSENT and keeps the settings. -/
theorem test_format :
    let t := after (.arrayOperationComplete .asIntended)
      (after (.format 0x01 [] env) { running with armLatch := some ⟨.format, 0x00⟩ })
    (t.contexts.getD 0 .free).reply? = some ⟨0x01, .format, .ok, [0x00, 0x01, 0, 1, 0, 0, 0x04]⟩ ∧
      t.committed.tables.dirty = [9, 4] := by decide +kernel

/-- R155, R156: SET_OPTION answers the item with its old and new value, and the tick period follows. -/
theorem test_setOption :
    let t := after (.arrayOperationComplete .asIntended) (after (.setOption 0x01 [0x07, 0x00, 0x64] env) running)
    (t.contexts.getD 0 .free).reply? = some ⟨0x01, .setOption, .ok, [0x07, 0x00, 0x0A, 0x00, 0x64]⟩ ∧
      t.tickPeriod = 100 := by decide +kernel

/-- R150: a first COMMIT_PROFILES programs the marker and the contents of bank A. -/
theorem test_commitProfiles :
    let s1 := after (.commitProfiles 0x01 [] env) { running with armLatch := some ⟨.commitProfiles, 0x00⟩ }
    let s2 := after (.fuseOperationComplete .asIntended) s1
    let s3 := after (.fuseOperationComplete .asIntended) s2
    s2.fuses.markerA = true ∧ (s3.contexts.getD 0 .free).reply? = some ⟨0x01, .commitProfiles, .ok, [0x01, 0x01]⟩ ∧
      goodBank s3.fuses.bankA = some factoryProfiles := by decide +kernel

/-- R152: contents that do not read back leave the label DAMAGED. -/
theorem test_setOwnerLabel :
    let s1 := after (.setOwnerLabel 0x01 (List.replicate 16 0x41) env) { running with armLatch := some ⟨.setOwnerLabel, 0x00⟩ }
    let s2 := after (.fuseOperationComplete .asIntended) s1
    let s3 := after (.fuseOperationComplete (.differs [0x41])) s2
    (s3.contexts.getD 0 .free).reply? = some ⟨0x01, .setOwnerLabel, .fuseFault, [0x02]⟩ ∧ s3.alarms = 0x04 := by
  decide +kernel

/-- R143, R144: a cell that does not blow is followed by the second, whose success fixes the guard. -/
theorem test_fixGuard :
    let s1 := after (.fixGuard 0x01 [] env) { running with armLatch := some ⟨.fixGuard, 0x00⟩ }
    let s2 := after (.fuseOperationComplete .asIntended) s1
    let s3 := after (.fuseOperationComplete .untouched) s2
    let s4 := after (.fuseOperationComplete .asIntended) s3
    let s5 := after (.fuseOperationComplete .asIntended) s4
    (s5.contexts.getD 0 .free).reply? = some ⟨0x01, .fixGuard, .ok, [0x02]⟩ ∧ s5.committed.fuse.guardA = .failed ∧
      s5.committed.guardEngaged true = true := by decide +kernel

/-- R58, R55: background reclaim erases the head of the dirty list and records it FREE with its count raised. -/
theorem test_backgroundReclaim :
    let s1 := after (.backgroundReclaim env) running
    let s3 := after (.arrayOperationComplete .asIntended) (after (.arrayOperationComplete .asIntended) s1)
    s1.job.map Job.op = some (.erase 9 1) ∧ s3.committed.tables.seg 9 = ⟨.free, 8, false⟩ ∧
      s3.committed.tables.dirty = [] := by decide +kernel

/-- R57: an erase the watchdog stops retires the segment with reason 02h (section 3.5's example). -/
theorem test_reclaim_watchdog :
    let s1 := after (.backgroundReclaim env) running
    let s3 := after (.arrayOperationComplete .asIntended) (after (.arrayWatchdogTrip .untouched) s1)
    (s3.committed.tables.seg 9).state = .retired ∧ s3.alarms = 0x03 ∧
      s3.events.map Event.what = [⟨.segmentRetired, ⟨0, true⟩, 0x02, 9⟩] := by decide +kernel

/-- R62: a target with an entry waiting to make it unusable is not chosen by the next compaction (log 21). -/
theorem test_failed_target_not_chosen_again :
    compactionTargets [true, true, true, true] [.write (.sealed 0 3)] (some 0) = [1, 2, 3] ∧
      compactionTargets [true, true, true, true] [.write (.sealed 0 3), .write (.unusable 1)] (some 2) = [3, 0] := by
  decide +kernel

/-- R47, R85: a mark that the watchdog stopped leaves no valid image, whatever it reads (log 10). -/
theorem test_tripped_mark_is_not_valid :
    let c := { CatSegment.erased with generation := some 1, image := some (tables []), pages := 15 }
    (c.afterMark .asIntended true).valid = false ∧ (c.afterMark .asIntended false).valid = true := by decide +kernel

/-- R150: contents that did not verify are bad at the next mount, were they those of another good bank; what was
programmed whole is good. -/
theorem test_failed_bank_is_bad :
    let other := bankBytes (factoryProfiles.set 7 ⟨true, 0, 1, true, 1, 1⟩)
    goodBank (some other) ≠ none ∧ goodBank (bankAfter none (bankBytes factoryProfiles) (.differs other)) = none ∧
      goodBank (bankAfter none (bankBytes factoryProfiles) .asIntended) = some factoryProfiles := by decide +kernel

/-- R58: a paused reclaim is reconsidered when its sample is due; of one that is not due the choice is free (log 13). -/
theorem test_reclaimReconsider :
    (after (.reclaimReconsider env) { running with reclaimPaused := true }).job = none ∧
      (after (.reclaimReconsider env) { running with
        reclaimPaused := true
        committed := { running.committed with sample := { running.committed.sample with dueMark := true } } }).job.map Job.op =
          some (.erase 9 1) := by decide +kernel

/-- R12, R15: what a FETCH delivers and what a PEEK shows are fixed at the lead point, whatever happens behind it. -/
theorem test_lead_point_captures :
    let queued := { running with contexts := [.held (request .seek [0x00, 0, 0, 0, 2] 0) .queued, .free] }
    let fetching := after (.requestStart env) (after (.leadByte ⟨0xA2, true⟩) queued)
    let peeking := after (.requestStart env) (after (.leadByte ⟨0xA4, true⟩) queued)
    (fetching.contexts.getD 0 .free).isDone = true ∧ (after .fetch fetching).sdo = .drive [0x00] 0xFF ∧
      (after .fetch fetching).leadSdo = some 0xFF ∧
      (after (.peek env) peeking).sdo = (after (.leadByte ⟨0xA4, true⟩) queued).sdo ∧
      (after (.peek env) peeking).sdo ≠ (after (.peek env) (after .transactionEnd peeking)).sdo := by decide +kernel

/-- R177: in FAULTED, and after a RESET there, bits 8 to 11 of the status word show what the mount selected, though a FORMAT
refused TEMP_INHIBIT at -40 degrees has selected entry 1 (R40, R84, log 49). -/
theorem test_faulted_shows_mounts_profile :
    let s := after (.mountComplete env) { State.reset with mountOutcome := .faulted }
    let t := after (.format 0x01 [] ⟨true, -40000⟩) { s with
      armLatch := some ⟨.format, 0x00⟩
      committed := { s.committed with sample := { s.committed.sample with dueMark := true } } }
    let u := after (.reset 0x3B .untouched) { t with resetArm := true }
    (t.contexts.getD 0 .free).reply? = some ⟨0x01, .format, .tempInhibit, []⟩ ∧ t.committed.activeProfile = 1 ∧
      t.dev = .faulted ∧ (t.statusWord true false).extractLsb' 8 4 = 0 ∧
      u.dev = .resetting ∧ (u.statusWord true false).extractLsb' 8 4 = 0 := by decide +kernel

/-- R59, R61: a new image's generation is one greater, up to the last that four bytes hold. -/
theorem test_generation : nextGeneration 0 = 1 ∧ nextGeneration 0xFFFFFFFE = 0xFFFFFFFF := by decide +kernel

/-- R52: the first segment's link number is 1, and a later one's is one greater, up to the last that four bytes hold. -/
theorem test_linkNumber :
    { stream0 with segs := [] }.nextLink = 1 ∧ stream0.nextLink = 2 ∧
      { stream0 with segs := [⟨4, 0xFFFFFFFE, 1⟩] }.nextLink = 0xFFFFFFFF := by decide +kernel

/-- R60, R170: an entry whose program a hardware reset stops is a spent position, whatever it reads. -/
theorem test_reset_spends_entry :
    let s1 := after (.sealStream 0x01 [0x00] env) running
    let s2 := after (.hardwareReset true .asIntended) s1
    s1.job.map Job.op = some (.catEntry 0 10 (.sealed 0 3) 1) ∧
      (catSegAt s2.catSegs 0).positions = [.spent false] := by decide +kernel

/-- R168, R170: a sensor attempt that a reset cuts off ends with both lines released and no STOP. -/
theorem test_reset_releases_bus :
    let s := { running with job := some ⟨⟨.background, running.committed, [], 0⟩, .sensor, .backgroundRefresh⟩, resetArm := true }
    (after (.reset 0x3B .untouched) s).sensorLog = [.release] ∧
      (after (.hardwareReset true .untouched) s).sensorLog = [.release] := by decide +kernel

/-- R95, R101: an APPEND at its quota evicts its oldest segment, and counts the records it lost when it then has
to reclaim that segment. -/
theorem test_eviction_counted :
    let st := { stream0 with segs := [⟨4, 1, 1⟩, ⟨5, 2, 2⟩], writePos := 504 }
    let s := { running with committed := { running.committed with tables := { tables [st] with
      segs := List.replicate 4 ⟨.system, 0, false⟩ ++ [⟨.linked, 2, false⟩, ⟨.linked, 3, false⟩], dirty := [] } } }
    let t := after (.arrayOperationComplete .asIntended) (after (.append 0x01 [0x00, 0x00] env) s)
    (t.job.map Job.op = some (.erase 4 1)) ∧
      (∃ a : AppendData, a.evicted = 1 ∧ t.job.map Job.stage = some (.forcedErase a 4)) :=
  ⟨by decide +kernel, _, by decide +kernel, rfl⟩

/-- The device of `running` with the external sensor in Q2 at 4Ch. -/
def external : State :=
  { running with committed := { running.committed with tables := { tables [stream0] with
      settings := { Settings.factory with sensorSource := 0x0000, sensorFormat := 0x0001 } } } }

/-- R115, R128: a sample of the external sensor; R117: stretching fails it with reason 04h. -/
theorem test_sensor :
    let s1 := after (.sampleTemperature 0x01 [] env) external
    let s2 := after (.sensorAttempt ⟨0, true, true, true, 0x0068⟩ env) s1
    let s3 := after (.stretchTimeout env) s1
    s1.job.map Job.op = some .sensor ∧ s2.committed.sample = ⟨some 0x0068, some .external, 0, false, false, 0, false⟩ ∧
      (s3.contexts.getD 0 .free).reply?.map (fun r => (r.status, r.payload.take 4)) =
        some (.sensorFailed, [0x00, 0x04, 0x00, 0x64]) ∧ s3.sensorLog = [.release] := by decide +kernel

/-- R37: REQUEST_START takes the QUEUED request accepted first. -/
theorem test_requestStart :
    let t := after (.requestStart env) { running with
      contexts := [.held (request .seek [0x00, 0, 0, 0, 2] 5) .queued, .held (request .seek [0x00, 0, 0, 0, 1] 4) .queued] }
    t.contexts = [.held (request .seek [0x00, 0, 0, 0, 2] 5) .queued,
      .held (request .seek [0x00, 0, 0, 0, 1] 4) (.done 0 .ok [0, 0, 0, 1])] := by decide +kernel

/-! ### Witnesses: for every statement with hypotheses, a state and operands that meet them together, and for one
with several clauses one for each, at the ends of the ranges -/

/-- Eight contexts with these first. -/
def contextsOf (cs : List Context) : List Context := cs ++ List.replicate (8 - cs.length) .free

/-- The device of `running` with the HOST source configured. -/
def hostSource : State :=
  { running with committed := { running.committed with tables := { tables [stream0] with
      settings := { Settings.factory with sensorSource := 0x0002 } } } }

/-- An APPEND's data with these flags and payload. -/
def append (flags : Byte) (payload : List Byte) : AppendData := ⟨0, payload, ⟨0, true⟩, 0x8000, flags, 0, 0, false⟩

/-- A job of the request of context 0 on `running`. -/
def jobOf (op : Operation) (stage : Stage) : Job :=
  ⟨⟨.request 0 (request .append [] 0), running.committed, [], 0⟩, op, stage⟩

/-- `marked` with this operation in progress for the request of context 0. -/
def atWork (op : Operation) (stage : Stage) : State := { marked with job := some (jobOf op stage) }

/-- A faulted device, with the arming for a FORMAT and this committed state. -/
def faultedOf (c : Committed) : State :=
  { running with dev := .faulted, committed := { c with cat := ⟨none, 0, 0, false⟩ }, armLatch := some ⟨.format, 0x00⟩ }

theorem witness_StepRunsFrontCommand : State.reset.pending = [] := rfl

theorem witness_ArrayFormKept :
    ArrayForm marked ∧ step { marked with pending := [.append 0x01 [0x00, 0x00] env] } =
      .next (after (.append 0x01 [0x00, 0x00] env) marked) := by
  refine ⟨?_, rfl⟩
  show Memory.wf _ = true
  decide +kernel

theorem witness_ContextLimitsKept :
    ContextLimits { running with contexts := List.replicate 6 (.held (request .read [] 0) .queued) ++ [.free, .free] } ∧
      EventLimit { running with events := List.replicate 16 ⟨0, raised .mounted ⟨0, true⟩ 0 0⟩ } ∧
      step { running with pending := [.tick] } = .next (after .tick running) := by
  refine ⟨⟨?_, ?_, ?_⟩, ?_, rfl⟩
  · decide +kernel
  · decide +kernel
  · decide +kernel
  · show List.length _ ≤ 16; decide +kernel

theorem witness_TimeUnsetClearedOnlyBySetTime :
    exec (.setTime 0x01 [0, 0, 0, 1] env) running = .next (after (.setTime 0x01 [0, 0, 0, 1] env) running) ∧
      running.timeUnset = true ∧ (after (.setTime 0x01 [0, 0, 0, 1] env) running).timeUnset = false := by
  refine ⟨rfl, rfl, ?_⟩; decide +kernel

theorem witness_AlarmsClearedOnlyAsListed :
    let s := { running with alarms := 0x01 }
    exec (.clearAlarms 0x01 [0x01]) s = .next (after (.clearAlarms 0x01 [0x01]) s) ∧
      s.alarms &&& (after (.clearAlarms 0x01 [0x01]) s).alarms ≠ s.alarms := by
  refine ⟨rfl, ?_⟩; decide +kernel

theorem witness_FuseCellsOnlyBlow :
    let s := { running with fuses := { FuseStore.delivered with markerA := true } }
    exec (.hardwareReset true .untouched) s = .next (after (.hardwareReset true .untouched) s) ∧
      s.fuses.cell .markerA = true := ⟨rfl, rfl⟩

theorem witness_AsleepOrResetHearsNothingElse :
    (asleep.dev = .deepSleep ∧ asleep.job = none ∧ asleep.sdo = .highZ ∧ asleep.alertLow = false) ∧
      inReset.resetLow = true ∧ inReset.job = none ∧ inReset.sdo = .highZ ∧ inReset.alertLow = false := by
  refine ⟨⟨rfl, rfl, rfl, rfl⟩, rfl, rfl, rfl, rfl⟩

theorem witness_ImmediateRequestsLeaveMediaAlone :
    Kind.getTime.isMedia = false ∧ LinkIdle running ∧ exec (.submit Kind.getTime.code 0x01 [] 0x0000 env) running =
      .next (after (.submit Kind.getTime.code 0x01 [] 0x0000 env) running) := by
  refine ⟨rfl, ?_, rfl⟩; decide +kernel

/-- An empty payload and the largest one, in the smallest slots without options and the largest with both. -/
theorem witness_RecordWrittenReadsBack :
    let small := { stream0 with next := 2 ^ 32 - 1 }
    let large := { stream0 with slotSize := 512, timeOption := true, tempOption := true }
    (Memory.wf [] = true ∧ small.slotSize ∈ [64, 128, 256, 512] ∧ small.next < 2 ^ 32 ∧
      (append 0x00 []).payload.length ≤ small.maxPayload ∧ (append 0x00 []).flags.getLsbD 0 = small.timeOption ∧
      (append 0x00 []).flags.getLsbD 1 = small.tempOption ∧ ∀ i < small.slotSize, readByte [] (0 + i) = 0xFF) ∧
    large.slotSize ∈ [64, 128, 256, 512] ∧ large.next < 2 ^ 32 ∧
      (append 0x03 (List.replicate 496 0xFF)).payload.length = large.maxPayload ∧
      (append 0x03 []).flags.getLsbD 0 = large.timeOption ∧ (append 0x03 []).flags.getLsbD 1 = large.tempOption := by
  refine ⟨⟨rfl, ?_, ?_, ?_, ?_, ?_, fun _ _ => rfl⟩, ?_, ?_, ?_, ?_, ?_⟩ <;> decide +kernel

/-- The first slot of an empty segment, and the last slot of one whose slot 502 holds its one record. -/
theorem witness_CommittedRecordSurvivesMount :
    let first := { stream0 with next := 1, writePos := 0 }
    let m := [(slotBase 4 64 502 + 7, (0x5A : Byte))]
    let last := { stream0 with next := 2, writePos := 503 }
    (Memory.wf [] = true ∧ first.state ≠ .absent ∧ first.newest = some ⟨4, 1, 1⟩ ∧ first.slotSize ∈ [64, 128, 256, 512] ∧
      (append 0x00 []).payload.length ≤ first.maxPayload ∧ recoverStream [] first = { first with cursor := first.oldest } ∧
      first.writePos < slotsPerSegment first.slotSize) ∧
    Memory.wf m = true ∧ recoverStream m last = { last with cursor := last.oldest } ∧
      last.writePos + 1 = slotsPerSegment last.slotSize := by
  refine ⟨⟨?_, ?_, ?_, ?_, ?_, ?_, ?_⟩, ?_, ?_, ?_⟩ <;> decide +kernel

/-- The factory table; a bank one byte short, one of zeros, whose check does not match, and a table without entry 0. -/
theorem witness_ProfileBankReadsBack :
    factoryProfiles.length = 8 ∧ (∀ p ∈ factoryProfiles, p.programClass ≤ 3 ∧ p.eraseClass ≤ 3) ∧
      factoryProfiles.head?.map Profile.used = some true ∧ (List.replicate 65 (0x00 : Byte)).length ≠ 66 ∧
      checkBytes ((List.replicate 66 0x00).take 64) ≠ (List.replicate 66 0x00).drop 64 ∧
      (List.replicate 8 (⟨false, 0, 0, false, 0, 0⟩ : Profile)).head?.map Profile.used = some false := by decide +kernel

/-- One segment that is suspect and one that is not, the last of the table. -/
theorem witness_ReleasedSegmentsBecomeDirtyOrRetired :
    let t := { tables [stream0] with segs := segments.set 4 ⟨.linked, 2, true⟩ }
    [4, 9].Nodup ∧ (∀ i ∈ [4, 9], i < t.segs.length) ∧ (t.seg 4).suspect = true ∧ (t.seg 9).suspect = false := by
  decide +kernel

/-- The committed state of `running` with this pool threshold. -/
def threshold (n : Half) : Committed :=
  { running.committed with tables := { tables [stream0] with settings := { Settings.factory with poolLowThreshold := n } } }

/-- Five segments are available: one below the threshold, with fifteen events, and exactly at it. -/
theorem witness_PoolLevelRaisesOncePerDescent :
    let below := { running with
      committed := threshold 6, poolLowArmed := true
      events := List.replicate 15 ⟨0, raised .mounted ⟨0, true⟩ 0 0⟩ }
    let at' := { running with committed := threshold 5, poolLowArmed := true }
    (below.committed.tables.available < below.committed.tables.settings.poolLowThreshold.toNat ∧
      below.poolLowArmed = true ∧ below.events.length < 16) ∧
    ¬ (at'.committed.tables.available < at'.committed.tables.settings.poolLowThreshold.toNat ∧ at'.poolLowArmed = true) := by
  decide +kernel

/-- An unknown lead in an assertion of its own, and after its lead point. -/
theorem witness_UnknownLeadOnlyCounts :
    LinkIdle { running with unknownLeads := 0xFF } ∧ (0xA5 : Byte) ∉ [0xA1, 0xA2, 0xA3, 0xA4, 0xC1, 0xC2, 0xC3, 0xC4] ∧
      let a := after (.leadByte ⟨0xA5, true⟩) running
      a.resetLow = false ∧ a.dev ≠ .deepSleep ∧ a.csLow = true ∧ a.txn = .lead 0xA5 false := by
  decide +kernel

/-- A length of 521; a frame of 520 parameter bytes; and one of none, with a wrong check. -/
theorem witness_FrameErrorsCountAndLatch :
    LinkIdle running ∧ 520 < (521 : Half).toNat ∧ (List.replicate 520 (0x00 : Byte)).length ≤ 520 ∧
      ([] : List Byte).length ≤ 520 ∧ check (0x30 :: 0x01 :: be16 0) ≠ 0x0000 := by decide +kernel

theorem witness_TransactionEndReleasesLink :
    LinkIdle running ∧ (0xC4 : Byte) ∈ [0xA1, 0xC1, 0xC2, 0xC3, 0xC4] ∧
      (after (.leadByte ⟨0xA1, true⟩) running).txn = .lead 0xA1 false ∧
      (after (.leadByte ⟨0xA4, true⟩) running).txn = .lead 0xA4 false := by
  decide +kernel

/-- The states of the ladder: MOUNTING, sleep pending, FAULTED, and RUNNING with the table full and with six media
contexts. -/
theorem witness_IntakeCodeIsFirstFailure :
    LinkIdle State.reset ∧ LinkIdle { running with sleepPending := true } ∧ LinkIdle { running with dev := .faulted } ∧
      LinkIdle { running with contexts := List.replicate 8 (.held (request .getTime [] 0) (.done 0 .ok [])) } ∧
      LinkIdle { running with contexts := contextsOf (List.replicate 6 (.held (request .read [] 0) .queued)) } ∧
      (List.replicate 520 (0x00 : Byte)).length ≤ 520 := by decide +kernel

/-- A frame answered NOT_READY, and one answered FRAME_ERROR. -/
theorem witness_RejectedSubmitLeavesNoTrace :
    let early := after (.submit 0x09 0x05 [] 0xB460 env) State.reset
    let bad := after (.submit 0x09 0x05 [] 0xB461 env) running
    (LinkIdle State.reset ∧ exec (.submit 0x09 0x05 [] 0xB460 env) State.reset = .next early ∧
      early.sdo = .drive [0xFF, 0x01, 0x08] 0xFF) ∧
    LinkIdle running ∧ exec (.submit 0x09 0x05 [] 0xB461 env) running = .next bad ∧ bad.sdo = .drive [0xFF, 0x02, 0x08] 0xFF ∧
    520 < (521 : Half).toNat := by
  refine ⟨⟨?_, rfl, ?_⟩, ?_, rfl, ?_, ?_⟩ <;> decide +kernel

theorem witness_SubmitQueuesMediaRequest :
    let s := { running with contexts := contextsOf (List.replicate 5 (.held (request .read [] 0) .queued)) }
    Kind.append.isMedia = true ∧ Accepts s 0x01 ∧ mediaCount s.contexts = 5 ∧
      (List.replicate 520 (0x00 : Byte)).length ≤ 520 := by decide +kernel

/-- Two contexts DONE, of which position 1 completed first. -/
def twoDone : State :=
  { running with contexts := contextsOf [.held (request .read [] 0) (.done 4 .ok [0x01]),
      .held (request .getTime [] 1) (.done 3 .badParam [])] }

theorem witness_FetchOffersOldestReply :
    LinkIdle twoDone ∧ twoDone.contexts[1]? = some (.held (request .getTime [] 1) (.done 3 .badParam [])) ∧
      (∀ (j m : Nat) (r : Request) (st : Status) (p : List Byte), twoDone.contexts[j]? = some (.held r (.done m st p)) →
        j ≠ 1 → 3 < m) ∧ LinkIdle running ∧ ∀ c ∈ running.contexts, c.isDone = false := by
  refine ⟨by decide +kernel, by decide +kernel, ?_, by decide +kernel, by decide +kernel⟩
  intro j m r st p h hj
  match j, hj with
  | 0, _ => simp only [twoDone, contextsOf] at h; simp at h; omega
  | j + 2, _ =>
    have hf : ∀ k : Nat, (List.replicate 6 Context.free)[k]? ≠ some (Context.held r (.done m st p)) := by
      intro k hk
      have := List.mem_of_getElem? hk
      simp at this
    exact absurd (by simpa [twoDone, contextsOf] using h) (hf j)

/-- Each lead byte at the ends of its list; a reply chosen and none; the three transactions that go on; and bytes next to
the table's and at the ends of their range. -/
theorem witness_LeadPointSamplesResetArm :
    (LinkIdle { running with resetArm := true } ∧ (0xA1 : Byte) ∈ [0xA1, 0xA2, 0xA3, 0xA4, 0xC1, 0xC2, 0xC3, 0xC4] ∧
      (0xC4 : Byte) ∈ [0xA1, 0xA2, 0xA3, 0xA4, 0xC1, 0xC2, 0xC3, 0xC4]) ∧
    (LinkIdle twoDone ∧ twoDone.contexts[1]? = some (.held (request .getTime [] 1) (.done 3 .badParam []))) ∧
    (LinkIdle running ∧ ∀ c ∈ running.contexts, c.isDone = false) ∧
    (let a := after (.leadByte ⟨0xA2, true⟩) twoDone
     a.resetLow = false ∧ a.dev ≠ .deepSleep ∧ a.csLow = true ∧ a.txn = .lead 0xA2 false ∧ a.offered = some 1) ∧
    (let a := after (.leadByte ⟨0xA3, true⟩) running
     a.csLow = true ∧ a.txn = .lead 0xA3 false) ∧
    (let a := after (.leadByte ⟨0xA4, false⟩) running
     a.csLow = true ∧ a.txn = .lead 0xA4 false ∧ a.guardHigh = false) ∧
    (∀ b ∈ [(0x00 : Byte), 0xA0, 0xA5, 0xC0, 0xC5, 0xFF], b ∉ [0xA1, 0xA2, 0xA3, 0xA4, 0xC1, 0xC2, 0xC3, 0xC4]) := by
  decide +kernel

/-- After the FETCH row, and after the lead byte alone, with the reply's frame driven; and from the idle link. -/
theorem witness_DeliveryFreesContext :
    let s := after .fetch twoDone
    let u := after (.leadByte ⟨0xA2, true⟩) twoDone
    let frame : List Byte := [0x77, 0x0A, 0x10, 0x00, 0x00] ++ checkBytes [0x77, 0x0A, 0x10, 0x00, 0x00]
    (s.resetLow = false ∧ s.dev ≠ .deepSleep ∧ s.txn = .presence 1 ∧ s.sdo = .drive (0x01 :: frame) 0xFF ∧
      s.contexts[1]? = some (.held (request .getTime [] 1) (.done 3 .badParam []))) ∧
    (u.resetLow = false ∧ u.dev ≠ .deepSleep ∧ u.offered = some 1 ∧ u.txn = .lead 0xA2 false ∧
      u.sdo = .drive (0x01 :: frame) 0xFF ∧ u.contexts = s.contexts) ∧ LinkIdle twoDone := by decide +kernel

theorem witness_RefetchRepeatsEcho : LinkIdle { running with echo := some ⟨0x05, .linkStats, .ok, [0, 0, 0]⟩ } := by
  decide +kernel

theorem witness_PeekCapturesStatusWord :
    let s := { running with committed := { running.committed with activeProfile := 7 }, faultedProfile := some 7 }
    (LinkIdle s ∧ s.contexts.length = 8 ∧ s.committed.activeProfile ≤ 7 ∧ ∀ i, s.faultedProfile = some i → i ≤ 7) ∧
      { s with dev := .faulted, faultedProfile := some 0 }.dev = .faulted := by
  refine ⟨⟨by decide +kernel, by decide +kernel, by decide +kernel, ?_⟩, rfl⟩
  rintro i ⟨⟩; decide

theorem witness_WrongComplementOnlyCounts :
    LinkIdle running ∧ (0x3F : Byte) ≠ 0x3E ∧ (0x3C : Byte) ≠ 0x3D ∧ (0x3D : Byte) ≠ 0x3C ∧ (0x3A : Byte) ≠ 0x3B := by
  decide +kernel

/-- DONE, REFUSED for a QUEUED request, REFUSED in MOUNTING, IGNORED; and the entry, with CS# low. -/
theorem witness_SleepIsDecidedThenEntered :
    LinkIdle running ∧ LinkIdle { running with contexts := contextsOf [.held (request .read [] 0) .queued] } ∧
      LinkIdle State.reset ∧ LinkIdle { running with sleepPending := true } ∧
      (let s := { running with sleepPending := true, csLow := true, txn := .lead 0xA2 false }
       s.dev = .running ∧ s.sleepPending = true ∧ s.job = none ∧ s.resetLow = false ∧ s.csLow = true) := by
  decide +kernel

/-- Asleep with CS# high; in RUNNING; asleep in an assertion that began as C2h before the entry. -/
theorem witness_WakeReturnsToRunning :
    (asleep.dev = .deepSleep ∧ asleep.resetLow = false ∧ asleep.csLow = false ∧ asleep.txn = .idle) ∧ LinkIdle running ∧
      (asleep.sdo = .highZ ∧ asleep.alertLow = false ∧ (0x3C : Byte) ≠ 0x3D) ∧
      (let s := { asleep with csLow := true, txn := .noTransaction (some 0xC2) }
       s.dev = .deepSleep ∧ s.csLow = true ∧ s.txn = .noTransaction (some 0xC2)) ∧
      running.dev = .running ∧ running.resetLow = false := by decide +kernel

/-- With the flag set and clear; with a program, an erase of either kind, and a sensor attempt in progress. -/
theorem witness_ResetActsOnlyArmed :
    LinkIdle running ∧ LinkIdle { running with resetArm := true } ∧
      (let s := { running with resetArm := true, job := some ⟨⟨.background, running.committed, [], 0⟩, .erase 9 1, .backgroundErase 9⟩ }
       LinkIdle s ∧ s.resetArm = true ∧ s.job.map (fun j => j.op.isErase) = some true) ∧
      (let s := { atWork (.catErase 1 1) (.format [1] [] .erasing) with resetArm := true }
       LinkIdle s ∧ s.resetArm = true ∧ s.job.map (fun j => j.op.isErase) = some true) ∧
      (let s := { running with
          resetArm := true
          job := some ⟨⟨.background, running.committed, [], 0⟩, .catEntry 0 10 (.erased 9 8) 1, .catalogue ⟨[], none, .backgroundEnd⟩⟩ }
       LinkIdle s ∧ s.job.map (fun j => j.op.isErase) = some false) ∧
      (let s := { running with resetArm := true, job := some ⟨⟨.background, running.committed, [], 0⟩, .sensor, .backgroundRefresh⟩ }
       LinkIdle s ∧ s.resetArm = true ∧ s.job.map (fun j => j.op) = some .sensor) := by decide +kernel

/-- The end of a drain; RESET# rising; the supply with RESET# high, in RUNNING and with CS# low; and with RESET# low. In a
drain a body and a mark, the entry and the mark of a catalogue segment, the three cells that are first of two, the contents
and the cells that are second. -/
theorem witness_MountStartsAfterResets :
    (let s := { running with dev := .resetting }
     s.dev = .resetting ∧ s.resetLow = false ∧ s.job = none) ∧
    (inReset.resetLow = !false ∧ inReset.job = none ∧ { inReset with csLow := true }.csLow = true) ∧
    (running.resetLow = !true ∧ running.job = none) ∧ inReset.resetLow = true ∧
    (let cells : List Host.Cell := [(140000, 0x00), (140001, 0xFF)]
     (cells.map Prod.fst).Nodup ∧ (Operation.program cells 1).isArray = true ∧
       ∀ stage ∈ [Stage.body (append 0x00 []) 4 2, .mark (append 0x00 []) 4 2],
         let s := { atWork (.program cells 1) stage with dev := .resetting }
         s.dev = .resetting ∧ s.job = some (jobOf (.program cells 1) stage) ∧ Memory.wf s.flash = true) ∧
    (∀ op ∈ [Operation.catEntry 0 10 (.holdSet 0) 1, .catMark 3 1], op.isArray = true ∧
      let s := { atWork op (.catalogue ⟨[], none, .backgroundEnd⟩) with dev := .resetting }
      s.dev = .resetting ∧ s.job.map Job.op = some op ∧ 3 < s.catSegs.length ∧ Memory.wf s.flash = true) ∧
    (∀ p ∈ [(Operation.fuseCell .attemptA, Stage.guardAttempt false), (.fuseCell .cellB, .guardFix true),
        (.fuseCell .markerB, .bankMarker true), (.fuseCell .labelMarker, .labelMarker (List.replicate 16 0x41)),
        (.fuseBytes .bankA [0x01], .bankContents false)],
      let s := { atWork p.1 p.2 with dev := .resetting }
      s.dev = .resetting ∧ s.job = some (jobOf p.1 p.2) ∧ p.1.isFuse = true) := by
  refine ⟨?_, ?_, ?_, ?_, ?_, ?_, ?_⟩ <;> decide +kernel

/-- With nothing, and with an operation of each kind, in progress; with CS# high and low. -/
theorem witness_HardwareResetStopsEverything :
    AlertFollows running ∧ running.job = none ∧ running.csLow = false ∧ { running with csLow := true }.csLow = true ∧
      ∀ op ∈ [Operation.sensor, .program [(140000, 0x00)] 1, .erase 9 1, .catErase 0 1, .catPage 0 15 1 (tables []) 1,
          .catMark 3 1, .catEntry 0 767 (.holdSet 0) 1, .fuseCell .cellB, .fuseBytes .label [0x01]],
        let s := atWork op (.catalogue ⟨[], none, .backgroundEnd⟩)
        s.job.map Job.op = some op ∧ 3 < s.catSegs.length := by
  refine ⟨?_, ?_, ?_, ?_, ?_⟩
  · show running.alertLow = running.alertLevel; decide +kernel
  all_goals decide +kernel

/-- A catalogue segment with a valid image. -/
def imageSegment (generation : Word) (positions : List Position) : CatSegment :=
  ⟨some generation, 15, some (tables [stream0]), true, positions, false⟩

theorem witness_MountTakesNewestImage :
    let segs := [imageSegment 5 [], CatSegment.erased, imageSegment 6 [.entry (.holdSet 0), .spent false], CatSegment.erased]
    segs.length = 4 ∧ segs[2]? = some (imageSegment 6 [.entry (.holdSet 0), .spent false]) ∧
      (imageSegment 6 []).mark = true ∧ (imageSegment 6 []).generation = some 6 ∧
      (imageSegment 6 []).image = some (tables [stream0]) ∧
      ∀ (j : Nat) (d : CatSegment) (g' : Word), segs[j]? = some d → j ≠ 2 → d.mark = true → d.image ≠ none →
        d.generation = some g' → g'.toNat < (6 : Word).toNat := by
  refine ⟨rfl, rfl, rfl, rfl, rfl, ?_⟩
  intro j d g' h hj hm hi hg
  match j, hj with
  | 0, _ => simp at h; subst h; simp [imageSegment] at hg; subst hg; decide
  | 1, _ => simp at h; subst h; simp [CatSegment.erased] at hm
  | 3, _ => simp at h; subst h; simp [CatSegment.erased] at hm
  | j + 4, _ => simp at h

/-- The other parts: a wholly erased area, one with a spent position and no image; a drain, RESET# low, the supply; an
ABSENT stream, one without segments, one with a newest segment. -/
theorem witness_MountTakesNewestImage_others :
    (State.reset.catSegs.length = 4 ∧
      (∀ c ∈ State.reset.catSegs, ¬ (c.mark = true ∧ c.generation ≠ none ∧ c.image ≠ none)) ∧
      ∀ c ∈ State.reset.catSegs, c.generation = none ∧ c.pages = 0 ∧ c.image = none ∧ c.mark = false ∧ c.soiled = false ∧
        ∀ p ∈ c.positions, p = .spent true) ∧
    (let segs := List.replicate 4 { CatSegment.erased with positions := [.spent false] }
     segs.length = 4 ∧ (∀ c ∈ segs, ¬ (c.mark = true ∧ c.generation ≠ none ∧ c.image ≠ none)) ∧
      ¬ ∀ c ∈ segs, c.generation = none ∧ c.pages = 0 ∧ c.image = none ∧ c.mark = false ∧ c.soiled = false ∧
        ∀ p ∈ c.positions, p = .spent true) ∧
    (let s := { running with dev := .resetting }
     s.dev = .resetting ∧ s.resetLow = false ∧ s.job = none) ∧
    (inReset.resetLow = !false ∧ running.resetLow = !true) ∧
    (Stream.absent.state = .absent ∧ { stream0 with segs := [] }.state ≠ .absent ∧ stream0.segs.getLast? = some ⟨4, 1, 1⟩ ∧
      Memory.wf marked.flash = true ∧ stream0.slotSize ∈ [64, 128, 256, 512]) := by decide +kernel

/-- A fresh device with no event listed, and a faulted one with twelve; the HOST source; an external sample made before;
one usable segment with seven and with eight positions left, and a pool level one below its threshold and at it. -/
theorem witness_MountCompletes :
    let faulted := { State.reset with
      mountOutcome := .faulted
      events := List.replicate 12 ⟨0, raised .fuseFault ⟨0, true⟩ 1 0⟩ }
    let mounting : Committed → State := fun c => { running with
      dev := .mounting, mountSampled := true, poolLow := false, poolLowArmed := true, committed := c }
    let one : Nat → Committed := fun fill => { running.committed with
      tables := { tables [stream0] with usable := [true, false, false, false] }
      cat := ⟨some 0, fill, 1, false⟩ }
    (State.reset.dev = .mounting ∧ State.reset.resetLow = false ∧ State.reset.mountSampled = false ∧
      State.reset.committed.activeSource ≠ .external ∧ State.reset.events.length ≤ 12) ∧
    (faulted.dev = .mounting ∧ faulted.committed.activeSource = .internal ∧ faulted.events.length = 12) ∧
    { mounting hostSource.committed with mountSampled := false }.committed.activeSource = .host ∧
    ((mounting external.committed).mountSampled = true ∧ external.committed.activeSource = .external) ∧
    (∀ fill ∈ [761, 760], (mounting (one fill)).dev = .mounting ∧ (mounting (one fill)).events.length ≤ 12 ∧
      (one fill).tables.usable.countP (· == true) = 1 ∧ (one fill).cat.active ≠ none) ∧
    (768 < (one 761).cat.fill + 8 ∧ ¬ 768 < (one 760).cat.fill + 8) ∧
    ((threshold 6).tables.available < 6 ∧ ¬ (threshold 5).tables.available < 5 ∧
      (mounting (threshold 6)).poolLowArmed = true) := by
  refine ⟨?_, ?_, ?_, ?_, ?_, ?_, ?_⟩ <;> decide +kernel

/-- A present sample at the ends of its age, with work in progress and without. -/
theorem witness_TicksAndMillisecondsCount :
    (running.resetLow = false ∧ running.dev ≠ .deepSleep ∧ running.committed.sample.value ≠ none ∧
      running.committed.sample.age = 0) ∧
    (Sample.aged ⟨some 0, none, 0xFFFFFFFD, false, false, 0, false⟩).age = 0xFFFFFFFE ∧ asleep.dev = .deepSleep ∧
      inReset.resetLow = true ∧ running.job = none ∧
      (atWork .sensor .sampling).job = some (jobOf .sensor .sampling) ∧ (atWork .sensor .sampling).dev = .running := by
  decide +kernel

theorem witness_Accepts : Accepts running 0x01 ∧ EngineIdle running := by decide +kernel

/-- A device in FAULTED that takes in what it takes in there, and one in RUNNING. -/
theorem witness_AcceptsAlsoFaulted :
    AcceptsAlsoFaulted (faultedOf running.committed) 0x01 ∧ AcceptsAlsoFaulted running 0x01 ∧
      (after (.clearAlarms 0x01 [0x3F]) (faultedOf running.committed)).contexts.countP Context.isDone = 1 := by
  decide +kernel

theorem witness_ReportsReadCommittedState :
    AcceptsAlsoFaulted (faultedOf running.committed) 0x01 ∧ Accepts running 0x01 ∧ (∃ e ∈ running.committed.tables.segs.drop 4, e.state ≠ .retired) ∧
      (let s := { running with committed := { running.committed with tables := { tables [] with segs := [] } } }
       Accepts s 0x01 ∧ ∀ e ∈ s.committed.tables.segs.drop 4, e.state = .retired) := by decide +kernel

/-- Ids 00h and 0Fh, of an OPEN and an ABSENT stream. -/
theorem witness_StreamInfoReportsStreams :
    Accepts running 0x01 ∧ (0x00 : Byte).toNat < 16 ∧ (0x0F : Byte).toNat < 16 ∧
      (running.committed.tables.stream 0).state = .opened ∧ (running.committed.tables.stream 15).state = .absent := by
  decide +kernel

/-- In RUNNING and in FAULTED, with the counts and masks at the ends of their ranges. -/
theorem witness_EventAndAlarmRequests :
    AcceptsAlsoFaulted running 0x01 ∧ AcceptsAlsoFaulted (faultedOf running.committed) 0x01 ∧ 1 ≤ (0x01 : Byte).toNat ∧ (0x08 : Byte).toNat ≤ 8 ∧ (0x3F : Byte).toNat < 64 := by
  decide +kernel

/-- In RUNNING, with an empty field and with 520 bytes; and in FAULTED. -/
theorem witness_LinkStatsReadsAndClears :
    AcceptsAlsoFaulted running 0x01 ∧ ([] : List Byte).length ≤ 520 ∧ (List.replicate 520 (0x00 : Byte)).length ≤ 520 ∧
      AcceptsAlsoFaulted (faultedOf running.committed) 0x01 := by decide +kernel

theorem witness_GetTimeReadsCounter :
    Accepts running 0x01 ∧ (let s := { running with dev := .faulted }; LinkIdle s ∧ s.dev = .faulted) := by decide +kernel

theorem witness_SetTimeLoadsCounter :
    Accepts guarded 0x01 ∧ guarded.committed.guardEngaged true = false ∧ guarded.committed.guardEngaged false = true := by
  decide +kernel

/-- DELETE_STREAM of id 0Fh, which is valid, of id 10h, which is not, and FORMAT of any id; in FAULTED too. -/
theorem witness_ArmSetsLatch :
    AcceptsAlsoFaulted running 0x01 ∧ AcceptsAlsoFaulted (faultedOf running.committed) 0x01 ∧ ([0x33, 0x0F] : List Byte).length ≤ 520 ∧
      (0x0F : Byte).toNat < 16 ∧ ¬ (0x10 : Byte).toNat < 16 ∧
      (after (.arm 0x01 [0x33, 0x0F]) running).armLatch = some ⟨.deleteStream, 0x0F⟩ ∧
      (after (.arm 0x01 [0x33, 0x10]) running).armLatch = none ∧
      (after (.arm 0x01 [0x37, 0xFF]) running).armLatch = some ⟨.format, 0x00⟩ := by decide +kernel

/-- An ABORT with no QUEUED request, and with six, by flag 01h and by flag 00h with their tag; in FAULTED with a FORMAT
QUEUED. -/
theorem witness_AbortEndsQueuedRequests :
    let s := { running with contexts := contextsOf (List.replicate 6 (.held (request .read [] 0) .queued)) }
    let f := { faultedOf running.committed with contexts := contextsOf [.held (request .format [] 0) .queued] }
    AcceptsAlsoFaulted running 0x01 ∧ running.contexts.length = 8 ∧ AcceptsAlsoFaulted s 0x01 ∧ s.contexts.length = 8 ∧
      AcceptsAlsoFaulted f 0x01 ∧ f.contexts.length = 8 ∧
      (0x00 : Byte).toNat ≤ 1 ∧ (0x01 : Byte).toNat ≤ 1 ∧ (request .read [] 0).tag = 0x77 := by decide +kernel

/-- Lengths next to each kind's own, and values next to its range. -/
theorem witness_ImmediateBadParamChangesNothing :
    (Accepts running 0x01 ∧ AcceptsAlsoFaulted (faultedOf running.committed) 0x01 ∧
      (List.replicate 520 (0x00 : Byte)).length ≤ 520) ∧
    ∀ p ∈ [(Kind.getIdentity, [(0x00 : Byte)]), (.getSettings, [0x00]), (.poolInfo, [0x00]), (.readProfiles, [0x00]),
        (.linkStats, List.replicate 520 0x00), (.getTime, [0x00]), (.setTime, [0x00, 0x00, 0x00]), (.streamInfo, []),
        (.streamInfo, [0x10]), (.streamInfo, [0xFE]), (.readEvents, [0x00]), (.readEvents, [0x09]),
        (.readEvents, [0x01, 0x01]), (.releaseEvents, [0x00]), (.releaseEvents, [0x00, 0x02]), (.clearAlarms, [0x40]),
        (.clearAlarms, []), (.abort, [0x02, 0x00]), (.abort, [0x00])],
      p.1.isMedia = false ∧ p.1 ≠ .arm ∧ Malformed running.committed.tables p.1 p.2 := by
  refine ⟨by decide +kernel, ?_⟩
  simp only [List.forall_mem_cons, List.not_mem_nil, false_implies, implies_true, and_true]
  repeat' apply And.intro
  all_goals first | decide +kernel | (simp only [Malformed]; decide +kernel)

/-- `running` with record 1 of stream 0 whole in slot 0 of segment 4, its payload AAh. -/
def written : State :=
  let base := slotBase 4 64 0
  { running with
    flash := writeCells (writeCells [] (bodyCells { stream0 with next := 1 } (append 0x00 [0xAA]) base)) (markCell base) }

/-- Number 0 is below oldest, 1 and 2 are retained, 3 is next; stream 1 is ABSENT; in `running` no slot is marked, and in
`written` record 1 is intact. -/
theorem witness_ReadReturnsRecord :
    Accepts marked 0x01 ∧ EngineIdle marked ∧ (0x0F : Byte).toNat < 16 ∧
      (let st := marked.committed.tables.stream 0
       st.state ≠ .absent ∧ (0 : Word).toNat < st.oldest ∧ st.oldest ≤ (1 : Word).toNat ∧ (2 : Word).toNat < st.next ∧
         st.next ≤ (3 : Word).toNat ∧ st.slotOf marked.flash 1 = some (4, 0) ∧ st.slotOf marked.flash 2 = some (4, 1) ∧
         Memory.wf marked.flash = true ∧ st.slotSize ∈ [64, 128, 256, 512]) ∧
      (marked.committed.tables.stream 1).state = .absent ∧
      (Accepts running 0x01 ∧ EngineIdle running ∧ stream0.slotOf running.flash 1 = none) ∧
      (let slot := readRange written.flash (slotBase 4 64 0) 64
       Accepts written 0x01 ∧ EngineIdle written ∧ stream0.slotOf written.flash 1 = some (4, 0) ∧ slot.length = 64 ∧
         recordIntact stream0 slot 1 = true ∧ recordIntact stream0 slot 2 = false) := by decide +kernel

/-- The cursor below oldest, between, and at next; stream 1 is ABSENT. -/
theorem witness_CursorRequestsMoveCursor :
    let at0 := device [{ stream0 with cursor := 0 }]
    let at3 := device [{ stream0 with cursor := 3 }]
    (Accepts at0 0x01 ∧ EngineIdle at0 ∧ (at0.committed.tables.stream 0).cursor < (at0.committed.tables.stream 0).oldest) ∧
    (Accepts at3 0x01 ∧ EngineIdle at3 ∧ (at3.committed.tables.stream 0).cursor = (at3.committed.tables.stream 0).next) ∧
    (Accepts running 0x01 ∧ EngineIdle running ∧
      (running.committed.tables.stream 0).oldest ≠ (running.committed.tables.stream 0).next ∧
      (running.committed.tables.stream 0).cursor ≠ (running.committed.tables.stream 0).next) ∧
    (running.committed.tables.stream 1).state = .absent ∧
    (stream0.slotOf running.flash 1 = none ∧ stream0.slotOf written.flash 1 = some (4, 0) ∧
      recordIntact stream0 (readRange written.flash (4 * 32768 + 512 + 0 * 64) 64) 1 = true ∧
      stream0.slotOf marked.flash 1 = some (4, 0) ∧
      recordIntact stream0 (readRange marked.flash (4 * 32768 + 512 + 0 * 64) 64) 1 = false) := by decide +kernel

/-- The internal source; the bounds of a temperature, -220 and +600, with HOST configured and not; the die one thousandth
inside half a degree of 25 degrees on either side. -/
theorem witness_SampleRequestsRenewSample :
    (Accepts running 0x01 ∧ EngineIdle running ∧ running.committed.activeSource = .internal) ∧
    (-220 : Int) = ((0xFF : Byte) ++ (0x24 : Byte)).toInt ∧ ((0x02 : Byte) ++ (0x58 : Byte)).toInt = 600 ∧
    (Accepts hostSource 0x01 ∧ EngineIdle hostSource ∧ hostSource.committed.tables.settings.source = .host ∧
      hostSource.committed.sample.fallback = false) ∧
    running.committed.tables.settings.source ≠ .host ∧
    (∀ p ∈ [((none : Option Half), false, 0), (some 0, true, 0), (some 0, false, 1001)],
      { running.committed with sample := ⟨p.1, none, p.2.2, true, p.2.1, 0, false⟩ }.due = true) ∧
    (∀ c ∈ [running.committed, hostSource.committed],
      { c with sample := ⟨some 0, none, 1000, true, false, 0, false⟩ }.due = false) ∧
    (-500 < (24501 : Int) - 1000 * 25 ∧ (25499 : Int) - 1000 * 25 < 500) := by decide +kernel

/-- The committed state with a sample that is due. -/
def dueOf (c : Committed) : Committed := { c with sample := { c.sample with dueMark := true } }

/-- `running` with a sample that is due and this arming. -/
def dueArmed (a : Option ArmPair) : State := { running with committed := dueOf running.committed, armLatch := a }

/-- A due sample of the internal source, which at 25 degrees permits writes and at -40 does not, and of the external one. -/
theorem witness_SampleRequestsRenewSample_due :
    let s := dueArmed none
    let e := { external with committed := dueOf external.committed }
    (Accepts s 0x01 ∧ EngineIdle s ∧ s.committed.cat.readOnly = false ∧ s.committed.due = true ∧
      s.committed.activeSource = .internal ∧ (s.committed.sampled (dieValue 25000) .internal).permits = true ∧
      (s.committed.sampled (dieValue (-40000)) .internal).permits = false) ∧
    (Accepts e 0x01 ∧ EngineIdle e ∧ e.committed.cat.readOnly = false ∧ e.committed.due = true ∧
      e.committed.activeSource = .external) := by decide +kernel

/-- With that due sample every modifying request reaches step 6, at the ends of its operands' ranges. -/
theorem witness_ReachesStepSix :
    let s := dueArmed none
    let held := { device [{ stream0 with hold := true }] with
      committed := dueOf (device [{ stream0 with hold := true }]).committed }
    ReachesStepSix s 0x01 env (.append 0x01 (0x00 :: 0x01 :: List.replicate 54 0xFF) env) .append
      (0x00 :: 0x01 :: List.replicate 54 0xFF) false ∧
    ReachesStepSix s 0x01 env (.trim 0x01 (0x00 :: be32 (3 : Word).toNat) env) .trim (0x00 :: be32 (3 : Word).toNat) false ∧
    ReachesStepSix s 0x01 env
      (.createStream 0x01 ([0x0F, 0x03, 0x00, 0x00, 0x02, 0x03] ++ be32 (0xFFFF0000 : Word).toNat ++ []) env) .createStream
      ([0x0F, 0x03, 0x00, 0x00, 0x02, 0x03] ++ be32 (0xFFFF0000 : Word).toNat ++ []) false ∧
    ReachesStepSix (dueArmed (some ⟨.deleteStream, 0x00⟩)) 0x01 env (.deleteStream 0x01 [0x00] env) .deleteStream [0x00] true ∧
    ReachesStepSix s 0x01 env (.sealStream 0x01 [0x00] env) .sealStream [0x00] false ∧
    ReachesStepSix s 0x01 env (.setHold 0x01 [0x00] env) .setHold [0x00] false ∧
    ReachesStepSix held 0x01 env (.clearHold 0x01 [0x00] env) .clearHold [0x00] false ∧
    ReachesStepSix (dueArmed (some ⟨.format, 0x00⟩)) 0x01 env (.format 0x01 [] env) .format [] true ∧
    ReachesStepSix s 0x01 env (.setOption 0x01 [0x09, 0x00, 0x80] env) .setOption [0x09, 0x00, 0x80] false ∧
    ReachesStepSix (dueArmed (some ⟨.commitProfiles, 0x00⟩)) 0x01 env (.commitProfiles 0x01 [] env) .commitProfiles [] true ∧
    ReachesStepSix (dueArmed (some ⟨.setOwnerLabel, 0x00⟩)) 0x01 env (.setOwnerLabel 0x01 (List.replicate 16 0x41) env)
      .setOwnerLabel (List.replicate 16 0x41) true ∧
    ReachesStepSix (dueArmed (some ⟨.fixGuard, 0x00⟩)) 0x01 env (.fixGuard 0x01 [] env) .fixGuard [] true ∧
    guarded.committed.guardEngaged envLow.guardHigh = true ∧
    ReachesStepSix guarded 0x01 envLow (.setOption 0x01 [0x01, 0x00, 0x01] envLow) .setOption [0x01, 0x00, 0x01] false ∧
    ReachesStepSix guarded 0x01 envLow (.setOption 0x01 [0x08, 0x07, 0xFF] envLow) .setOption [0x08, 0x07, 0xFF] false := by
  refine ⟨?_, ?_, ?_, ?_, ?_, ?_, ?_, ?_, ?_, ?_, ?_, ?_, by decide +kernel, ?_, ?_⟩ <;> constructor <;> decide +kernel

/-- Entry 7 with a range of one quarter degree, entry 7 unused, and entry 0. -/
theorem witness_WriteProfileReplacesEntry :
    Accepts running 0x01 ∧ EngineIdle running ∧ running.committed.guardEngaged true = false ∧ (0x07 : Byte).toNat ≤ 7 ∧
      (0x01 : Byte).toNat ≤ 1 ∧ (0x03 : Byte).toNat ≤ 3 ∧
      ((0xFF : Byte) ++ (0xFF : Byte)).toInt < ((0x00 : Byte) ++ (0x00 : Byte)).toInt := by decide +kernel

/-- The guard engaged by the pin with each arming, and by a cell; no arming; the read-only condition and an inhibiting
profile, met by a request that reaches step 6; ABSENT, SEALED and held streams with the guard free; bank B used; a label; a fixed guard. -/
theorem witness_RefusalsChangeNothing :
    let armed := { guarded with armLatch := some ⟨.deleteStream, 0x0F⟩ }
    let fixedGuard := { running with
      armLatch := some ⟨.fixGuard, 0x00⟩
      committed := { running.committed with fuse := { FuseCopies.delivered with guardB := .blown, labelState := .damaged } } }
    let readOnly := { running with committed := { running.committed with cat := ⟨some 0, 761, 1, true⟩ } }
    let cold := { running with committed := { running.committed with activeProfile := 1 } }
    let held := { device [{ stream0 with hold := true }] with armLatch := some ⟨.format, 0x00⟩ }
    let closed := device [{ stream0 with state := .sealed }]
    let spent := { running with
      armLatch := some ⟨.commitProfiles, 0x00⟩
      committed := { running.committed with fuse := { FuseCopies.delivered with bank := .bUsed, labelState := .present } } }
    (Accepts armed 0x01 ∧ EngineIdle armed ∧ armed.committed.guardEngaged envLow.guardHigh = true ∧ (0x0F : Byte).toNat < 16) ∧
    (Accepts fixedGuard 0x01 ∧ EngineIdle fixedGuard ∧ fixedGuard.committed.guardEngaged true = true ∧
      (1 : Half).toNat ≤ 1 ∧ fixedGuard.committed.fuse.guardB = .blown ∧ (1000 : Half) ∈ [1, 10, 100, 1000]) ∧
    (Accepts running 0x01 ∧ EngineIdle running ∧ running.armLatch ≠ some ⟨.deleteStream, 0x00⟩ ∧
      (List.replicate 16 (0x00 : Byte)).length = 16) ∧
    (Accepts readOnly 0x01 ∧ EngineIdle readOnly ∧
      ReachesStepSix readOnly 0x01 env (.sealStream 0x01 [0x00] env) .sealStream [0x00] false ∧
      readOnly.committed.cat.readOnly = true) ∧
    (Accepts cold 0x01 ∧ EngineIdle cold ∧
      ReachesStepSix cold 0x01 env (.append 0x01 [0x00, 0x00] env) .append [0x00, 0x00] false ∧
      cold.committed.cat.readOnly = false ∧ cold.committed.due = false ∧ cold.committed.permits = false) ∧
    (running.committed.guardEngaged true = false ∧ (running.committed.tables.stream 15).state = .absent ∧
      (running.committed.tables.stream 0).next < (4 : Word).toNat ∧ (running.committed.tables.stream 0).hold = false) ∧
    (Accepts held 0x01 ∧ EngineIdle held ∧ held.committed.guardEngaged true = false ∧
      (held.committed.tables.stream 0).hold = true ∧ ∃ x ∈ held.committed.tables.streams, x.hold = true) ∧
    (Accepts closed 0x01 ∧ EngineIdle closed ∧ (closed.committed.tables.stream 0).state = .sealed) ∧
    (Accepts spent 0x01 ∧ EngineIdle spent ∧ spent.committed.guardEngaged true = false ∧
      spent.committed.fuse.bank = .bUsed ∧ spent.committed.fuse.labelState ≠ .absent) := by
  refine ⟨?_, ?_, ?_, ⟨?_, ?_, .sealStream _ ?_ ?_, ?_⟩, ⟨?_, ?_, .append _ _ _ ?_ ?_ ?_ ?_ ?_, ?_, ?_, ?_⟩, ?_, ?_, ?_, ?_⟩ <;>
    decide +kernel

/-- Every media kind with a length next to its own and with values next to their ranges, an armed kind with its arming and
without; and the parameter fields nearest to those. -/
theorem witness_RefusalsChangeNothing_malformed :
    let tb := running.committed.tables
    (∀ p ∈ [(Kind.read, [(0x10 : Byte), 0, 0, 0, 1]), (.read, [0x00, 0, 0, 1]), (.seek, [0x10, 0, 0, 0, 1]),
        (.readNext, []), (.readNext, [0x10]), (.sampleTemperature, [0x00]), (.setTemperature, [0x02, 0x59]),
        (.setTemperature, [0xFF, 0x23]), (.setTemperature, [0x00]), (.writeProfile, [8, 0, 0, 0, 0, 0, 0, 0, 0]),
        (.writeProfile, [7, 1, 0, 5, 0, 5, 0, 0, 0]), (.writeProfile, [0, 1, 0, 0, 0, 0, 0, 0, 4]),
        (.append, [0x00]), (.append, [0x00, 0x02]), (.append, 0x00 :: 0x00 :: List.replicate 55 0x00),
        (.append, 0x0F :: 0x00 :: List.replicate 503 0x00), (.trim, [0x00, 0, 0, 0, 4]), (.trim, [0x10, 0, 0, 0, 0]),
        (.createStream, [1, 0, 0, 0, 2, 0, 0, 0, 0]), (.createStream, [1, 4, 0, 0, 2, 0, 0, 0, 0, 1]),
        (.createStream, [1, 0, 2, 0, 2, 0, 0, 0, 0, 1]), (.createStream, [1, 0, 0, 0, 1, 0, 0, 0, 0, 1]),
        (.createStream, [1, 0, 1, 3, 0xFD, 0, 0, 0, 0, 1]), (.createStream, [1, 0, 1, 0, 0, 4, 0, 0, 0, 1]),
        (.createStream, [1, 0, 1, 0, 0, 0, 0, 0, 0, 0]), (.createStream, [1, 0, 1, 0, 0, 0, 0xFF, 0xFF, 0, 1]),
        (.deleteStream, [0x10]), (.sealStream, [0x00, 0x00]), (.setHold, []), (.clearHold, [0x10]), (.format, [0x00]),
        (.setOption, [0x00, 0, 0]), (.setOption, [0x0A, 0, 4]), (.setOption, [0x06, 0, 251]), (.setOption, [0x09, 0, 3]),
        (.setOption, [0x01, 0]), (.commitProfiles, [0x00]), (.setOwnerLabel, List.replicate 15 0x41), (.fixGuard, [0x00])],
      p.1.isMedia = true ∧ p.2.length ≤ 520 ∧ Malformed tb p.1 p.2) ∧
    (∀ p ∈ [(Kind.append, (0x00 : Byte) :: 0x01 :: List.replicate 54 0x00), (.append, 0x0F :: 0x00 :: List.replicate 502 0x00),
        (.writeProfile, [7, 1, 0, 5, 0, 6, 1, 3, 3]), (.writeProfile, [0, 1, 0, 0, 0, 0, 0, 0, 0]),
        (.createStream, [0x00, 3, 1, 3, 0xFC, 3, 0xFF, 0xFF, 0, 0])], ¬ Malformed tb p.1 p.2) ∧
    MarkedArmed { running with armLatch := some ⟨.format, 0x00⟩ } .format [0x00] true ∧
    MarkedArmed { running with armLatch := some ⟨.deleteStream, 0x10⟩ } .deleteStream [0x10] true ∧
    MarkedArmed { running with armLatch := some ⟨.format, 0x00⟩ } .deleteStream [0x10] false ∧
    MarkedArmed running .sealStream [] false := by
  refine ⟨?_, ?_, ?_, ?_, ?_, ?_⟩
  · simp only [List.forall_mem_cons, List.not_mem_nil, false_implies, implies_true, and_true]
    repeat' apply And.intro
    all_goals first | decide +kernel | (simp only [Malformed]; decide +kernel)
  · simp only [List.forall_mem_cons, List.not_mem_nil, false_implies, implies_true, and_true]
    repeat' apply And.intro
    all_goals first | decide +kernel | (simp only [Malformed]; decide +kernel)
  all_goals simp [MarkedArmed, running, device, State.reset]

/-- A running device with stream 0 of these segments, full and at this quota, and this segment table. -/
def fullStream (links : List SegLink) (quota : Nat) (kept : Retention) (segs : List SegEntry) (dirty : List Nat) : State :=
  { running with committed := { running.committed with
      tables := { tables [{ stream0 with segs := links, writePos := 504, quota := quota, retention := kept }] with
        segs := segs, dirty := dirty } } }

/-- The last slot of a segment of 504, an empty payload and the largest one of 54 bytes; the last number; a full newest
segment with every outcome of the quota test and of allocation. -/
theorem witness_AppendBeginsBodyProgram :
    let s := device [{ stream0 with writePos := 503, next := 0xFFFFFFFE }]
    let st := s.committed.tables.stream 0
    let two : List SegLink := [⟨4, 1, 1⟩, ⟨5, 2, 2⟩]
    let empty : List SegEntry := List.replicate 4 ⟨.system, 0, false⟩ ++ [⟨.linked, 2, false⟩, ⟨.linked, 3, false⟩]
    let free := fullStream [⟨4, 1, 1⟩] 2 .wrap segments [9]
    let atQuota := fullStream two 2 .wrap segments [9]
    let halted := fullStream two 2 .halt segments [9]
    let dirty := fullStream [⟨4, 1, 1⟩] 0 .halt (empty ++ [⟨.dirty, 0, false⟩]) [6]
    let evicting := fullStream two 3 .wrap empty []
    let starved := fullStream two 3 .halt empty []
    (Accepts s 0x01 ∧ EngineIdle s ∧ Writable s.committed ∧ (0x00 : Byte).toNat < 16 ∧ (0x01 : Byte).toNat ≤ 1 ∧
      st.state = .opened ∧ 54 = st.slotSize - 10 - st.optionBytes ∧ (List.replicate 54 (0x00 : Byte)).length ≤ 502 ∧
      st.next ≠ 0xFFFFFFFF ∧ st.segs.getLast? = some ⟨4, 1, 1⟩ ∧ (s.committed.tables.seg 4).suspect = false ∧
      st.writePos < 63 * (512 / st.slotSize) ∧ s.committed.activeProfile ≤ 7) ∧
    (let t := device [{ stream0 with next := 0xFFFFFFFF }]
     Accepts t 0x01 ∧ EngineIdle t ∧ Writable t.committed ∧ (t.committed.tables.stream 0).next = 0xFFFFFFFF) ∧
    (∀ t ∈ [free, atQuota, halted, dirty, evicting, starved], Accepts t 0x01 ∧ EngineIdle t ∧ Writable t.committed ∧
      EntryRoom t.committed 0 ∧ (t.committed.tables.stream 0).writePos = 63 * (512 / 64)) ∧
    (free.committed.tables.chooseFree = some 6 ∧ (free.committed.tables.stream 0).segs.length = 1) ∧
    ((atQuota.committed.tables.stream 0).segs = [⟨4, 1, 1⟩, ⟨5, 2, 2⟩] ∧ (atQuota.committed.tables.stream 0).quota = 2 ∧
      (atQuota.committed.tables.stream 0).hold = false) ∧
    (halted.committed.tables.stream 0).retention = .halt ∧
    (dirty.committed.tables.chooseFree = none ∧ dirty.committed.tables.dirty = [6]) ∧
    (evicting.committed.tables.chooseFree = none ∧ evicting.committed.tables.dirty = [] ∧
      (evicting.committed.tables.stream 0).retention = .wrap) ∧
    (starved.committed.tables.chooseFree = none ∧ starved.committed.tables.dirty = [] ∧
      (starved.committed.tables.stream 0).retention = .halt) ∧
    (let crowded := { atQuota with committed := { atQuota.committed with cat := ⟨some 0, 761, 1, false⟩ } }
     Accepts crowded 0x01 ∧ EngineIdle crowded ∧ Writable crowded.committed ∧ NeedsCompaction crowded.committed ∧
       targetsOf crowded.committed [.write (.evicted 0 2 [4])] = [1, 2, 3]) := by
  refine ⟨?_, ?_, ?_, ?_, ?_, ?_, ?_, ?_, ?_, ?_⟩ <;> decide +kernel

/-- The last fill at which no compaction is due; each request's own premises, at the ends of their ranges; the guard
engaged. -/
theorem witness_StructuralRequestsProgramOneEntry :
    let s := { running with
      committed := { running.committed with cat := ⟨some 0, 760, 1, false⟩ }
      armLatch := some ⟨.deleteStream, 0x00⟩ }
    let held := device [{ stream0 with hold := true }]
    let st := s.committed.tables.stream 0
    (Accepts s 0x01 ∧ EngineIdle s ∧ Writable s.committed ∧ EntryRoom s.committed 0 ∧
      s.committed.guardEngaged env.guardHigh = false ∧ (0x00 : Byte).toNat < 16) ∧
    (st.state = .opened ∧ st.hold = false ∧ st.oldest < (2 : Word).toNat ∧ (3 : Word).toNat = st.next) ∧
    ((s.committed.tables.stream 1).state = .absent ∧ (0x03 : Byte).toNat ≤ 3 ∧ (0x00 : Byte).toNat ≤ 1 ∧
      2 ≤ ((0x00 : Byte) ++ (0x02 : Byte)).toNat ∧ ((0x03 : Byte) ++ (0xFC : Byte)).toNat = 1020 ∧
      1 ≤ (1 : Word).toNat ∧ (0xFFFF0000 : Word).toNat ≤ 0xFFFF0000) ∧
    (Accepts held 0x01 ∧ EngineIdle held ∧ Writable held.committed ∧ EntryRoom held.committed 0 ∧
      (held.committed.tables.stream 0).hold = true) ∧
    (∀ x ∈ s.committed.tables.streams, x.hold = false) ∧
    ((∀ p ∈ [((1 : Half), (1 : Half)), (2, 2), (3, 0x08), (3, 0x77), (4, 0xFF), (5, 1), (6, 250), (6, 8000), (7, 1000),
        (8, 0x07FF), (9, 4), (9, 128)], SettingAllowed p.1.toNat p.2.toNat) ∧
      Accepts guarded 0x01 ∧ EngineIdle guarded ∧ Writable guarded.committed ∧
      guarded.committed.guardEngaged envLow.guardHigh = true ∧ guarded.committed.fuse.guardA ≠ .blown ∧
      guarded.committed.fuse.guardB ≠ .blown ∧ (guarded.committed.tables.stream 0).state = .opened) ∧
    ((1 : Word).toNat ≤ st.oldest ∧ (1 : Word).toNat ≤ st.next) ∧
    (let segs : List SegLink := [⟨410, 1, 1⟩, ⟨52, 2, 505⟩, ⟨733, 3, 1009⟩]
     segs.Pairwise (fun l m => l.firstSeq ≤ m.firstSeq) ∧ ∀ l ∈ segs, l.firstSeq ≤ 1300) ∧
    (let crowded : List Bool → Nat → Committed := fun usable fill => { running.committed with
       tables := { tables [stream0] with usable := usable }, cat := ⟨some 0, fill, 1, false⟩ }
     (∀ c ∈ [crowded [true, true, true, true] 761, crowded [true, false, false, false] 767,
         crowded [true, false, false, false] 768], Writable c ∧ NeedsCompaction c) ∧
       targetsOf (crowded [true, true, true, true] 761) [.write (.sealed 0 3)] = [1, 2, 3] ∧
       targetsOf (crowded [true, false, false, false] 767) [.write (.sealed 0 3)] = [] ∧ 767 < cataloguePositions ∧
       cataloguePositions ≤ 768) := by
  refine ⟨?_, ?_, ?_, ?_, ?_, ⟨by simp [SettingAllowed], ?_⟩, ?_, ?_, ?_⟩ <;> decide +kernel

/-- A FORMAT in FAULTED: with a parameter byte, unarmed, guarded, inhibited, started, and with a due sample that permits writes at 25 degrees and
not at -40; each step of it on the first target, and on the last, the only one left. -/
theorem witness_StructuralRequestsProgramOneEntry_faulted :
    let plain := faultedOf running.committed
    let cold := faultedOf { running.committed with activeProfile := 1 }
    let due := faultedOf (dueOf running.committed)
    let task : Machine.Task := ⟨.request 0 (request .format [] 0), plain.committed, [], 0⟩
    (∀ s ∈ [plain, cold, due], AcceptsFaulted s 0x01 ∧ EngineIdle s ∧ s.committed.cat.readOnly = false ∧
      ∀ x ∈ s.committed.tables.streams, x.hold = false) ∧
    (∀ x ∈ [(0x00 : Byte), 0xFF], { plain with armLatch := none }.armLatch ≠ some ⟨.format, x⟩) ∧
    (MarkedArmed plain .format [0x00] true ∧ MarkedArmed { plain with armLatch := none } .format [0x00] false ∧
      (catSegAt marked.catSegs 0).mark = false ∧ (catSegAt marked.catSegs 3).valid = false) ∧
    (faultedOf guarded.committed).committed.guardEngaged false = true ∧
    (plain.committed.guardEngaged true = false ∧ plain.committed.due = false ∧ plain.committed.permits = true) ∧
    (cold.committed.due = false ∧ cold.committed.permits = false) ∧
    (due.committed.due = true ∧ due.committed.activeSource = .internal ∧
      (due.committed.sampled (dieValue 25000) .internal).permits = true ∧
      (due.committed.sampled (dieValue (-40000)) .internal).permits = false) ∧
    (Memory.wf marked.flash = true ∧ task.work.cat.active = none) ∧
    (∀ p ∈ [((0 : Nat), [1, 2, 3], ([] : List Nat)), (3, [], [0, 1, 2])], ∀ q ∈ [(Operation.catErase p.1 1, TargetStep.erasing),
        (.catPage p.1 0 1 (tables []) 1, .page 0), (.catPage p.1 15 1 (tables []) 1, .page 15), (.catMark p.1 1, .marking)],
      let s := { marked with dev := .faulted, job := some ⟨task, q.1, .format (p.1 :: p.2.1) p.2.2 q.2⟩ }
      s.dev = .faulted ∧ s.job = some ⟨task, q.1, .format (p.1 :: p.2.1) p.2.2 q.2⟩) ∧
    TargetStep.erasing.Operates 0 (.catErase 0 1) ∧ (TargetStep.page 15).Operates 3 (.catPage 3 15 1 (tables []) 1) ∧
    TargetStep.marking.Operates 3 (.catMark 3 1) := by
  refine ⟨?_, ?_, ⟨by simp [MarkedArmed, faultedOf], by simp [MarkedArmed], by decide +kernel, by decide +kernel⟩, ?_, ?_, ?_,
    ?_, ?_, ?_, ⟨_, rfl⟩, ⟨_, _, _, rfl⟩, ⟨_, rfl⟩⟩ <;> decide +kernel

/-- Bank A next, and bank B next; no label; guard cell A untried, and failed. -/
theorem witness_FuseRequestsProgramMarkerFirst :
    let s := { running with armLatch := some ⟨.commitProfiles, 0x00⟩ }
    let second := { running with
      armLatch := some ⟨.fixGuard, 0x00⟩
      committed := { running.committed with fuse := { FuseCopies.delivered with bank := .aUsed, guardA := .failed } } }
    (Accepts s 0x01 ∧ EngineIdle s ∧ Writable s.committed ∧ s.committed.guardEngaged true = false ∧
      s.committed.fuse.bank = .fresh ∧ s.committed.fuse.labelState = .absent ∧ s.committed.fuse.guardA ≠ .blown ∧
      s.committed.fuse.guardB ≠ .blown) ∧
    (Accepts second 0x01 ∧ EngineIdle second ∧ Writable second.committed ∧ second.committed.fuse.bank ≠ .bUsed ∧
      second.committed.fuse.guardA = .failed ∧ second.committed.fuse.guardB ≠ .failed) := by decide +kernel

/-- Two requests QUEUED, of which position 1 was accepted first. -/
theorem witness_RequestStartTakesOldest :
    let a := Context.held (request .seek [] 5) .queued
    let b := Context.held (request .seek [] 4) .queued
    let s := { running with contexts := [a, b] }
    s.resetLow = false ∧ s.dev = .running ∧ s.sleepPending = false ∧ s.job = none ∧ s.ready = true ∧
      (∀ c ∈ s.contexts, c.isExecuting = false) ∧ s.contexts[1]? = some b ∧
      ∀ (j : Nat) (r : Request), s.contexts[j]? = some (.held r .queued) → j ≠ 1 → 4 < r.acceptance := by
  refine ⟨rfl, rfl, rfl, rfl, rfl, by decide +kernel, rfl, ?_⟩
  intro j r h hj
  match j, hj with
  | 0, _ => simp at h; subst h; decide
  | j + 2, _ => simp at h

/-- Programs of two bytes and of a mark, at each stage of an APPEND; an entry at each point an APPEND waits for one. -/
theorem witness_RecordProgramsLandAndCommit :
    (let s := { marked with job := some (jobOf (.program [(140000, 0x00), (140001, 0xFF)] 1) (.body (append 0 []) 4 2)) }
     Memory.wf s.flash = true ∧ s.job.isSome = true ∧ ([(140000, 0x00), (140001, 0xFF)].map (Prod.fst : Nat × Nat → Nat)).Nodup) ∧
    (running.dev = .running ∧ (append 0 []).id < running.committed.tables.streams.length) ∧
    (let cells := markCell (slotBase 4 64 2)
     (∀ stage ∈ [Stage.descriptor (append 0 []) 6, .body (append 0 []) 4 2, .mark (append 0 []) 4 2],
       Working (atWork (.program cells 1) stage) (jobOf (.program cells 1) stage).task (.program cells 1) stage) ∧
     Memory.wf (atWork (.program cells 1) .sampling).flash = true ∧ (cells.map Prod.fst).Nodup ∧
     (jobOf .sensor .sampling).task.owner = .request 0 (request .append [] 0)) ∧
    EntryRoom running.committed 0 ∧ (0xFFFFFFFE : Word) ≠ 0xFFFFFFFF ∧
    ∀ after ∈ [After.record (append 0 []), .allocate (append 0 []) 1, .retry (append 0 []), .giveUp (append 0 []),
        .recorded (append 0 []) 4 2],
      let e := Entry.linked 6 0 2 3
      Working (atWork (.catEntry 0 10 e 1) (.catalogue ⟨[.write e], none, after⟩))
        (jobOf .sensor .sampling).task (.catEntry 0 10 e 1) (.catalogue ⟨[.write e], none, after⟩) := by
  decide +kernel

/-- The last fill from which the retry needs no compaction; the last position of a read-only catalogue; an entry whose
request then completes in each way, and one of background reclaim. -/
theorem witness_EntryProgramCommitsOrIsRetried :
    let w : Committed := { running.committed with cat := ⟨some 0, 759, 1, false⟩ }
    let full : Committed := { running.committed with cat := ⟨some 0, 767, 1, true⟩ }
    (running.dev = .running ∧ w.cat.active = some 0 ∧ w.cat.readOnly = false ∧ w.cat.fill + 9 = 768 ∧
      (ReadBack.untouched ≠ .asIntended) ∧ 0 < running.catSegs.length) ∧
    (full.cat.active = some 0 ∧ full.cat.readOnly = true ∧ full.cat.fill = 767) ∧
    (∀ after ∈ [After.reply [0x00], .formatReply [0x00], .option 2 [0x02], .backgroundEnd],
      Working (atWork (.catEntry 0 10 .formatted 1) (.catalogue ⟨[.write .formatted], none, after⟩))
        (jobOf .sensor .sampling).task (.catEntry 0 10 .formatted 1) (.catalogue ⟨[.write .formatted], none, after⟩)) ∧
    (let j : Job := ⟨⟨.background, running.committed, [], 0⟩, .catEntry 0 10 (.erased 9 8) 1,
       .catalogue ⟨[.write (.erased 9 8)], none, .backgroundEnd⟩⟩
     Working { running with job := some j } j.task j.op j.stage ∧ j.task.owner = .background) := by decide +kernel

/-- A compaction: an entry that finds 761 positions used begins it, at target 1 of three and at none left; each of its
steps, on the first target and on the last; the entry with what waits behind it; the erase of the former segment. -/
theorem witness_EntryProgramCommitsOrIsRetried_compaction :
    let e := Entry.sealed 0 3
    let after := After.reply (be32 3)
    let queue : List CatAction := [.write (.unusable 1), .eraseFormer 0]
    let crowded : Committed := { running.committed with cat := ⟨some 0, 761, 1, false⟩ }
    (NeedsCompaction crowded ∧ targetsOf crowded [.write e] = [1, 2, 3] ∧ targetsOf crowded (.write e :: queue) = [2, 3] ∧
      (catSegAt running.catSegs 1).readsErased = true ∧ (0xFFFFFFFE : Word) ≠ 0xFFFFFFFF ∧
      (catSegAt [CatSegment.erased, { CatSegment.erased with soiled := true }] 1).readsErased = false) ∧
    (∀ p ∈ [((1 : Nat), [2, 3], ([] : List Nat)), (3, [], [1, 2])], ∀ q ∈ [(Operation.catErase p.1 1, TargetStep.erasing),
        (.catPage p.1 0 2 (tables []) 1, .page 0), (.catPage p.1 15 2 (tables []) 1, .page 15), (.catMark p.1 1, .marking)],
      let stage := Stage.catalogue ⟨[.write e], some ⟨p.1 :: p.2.1, p.2.2, q.2⟩, after⟩
      Working (atWork q.1 stage) (jobOf q.1 stage).task q.1 stage ∧ p.1 < (atWork q.1 stage).catSegs.length) ∧
    (let stage := Stage.catalogue ⟨.write e :: queue, none, after⟩
     Working (atWork (.catEntry 2 0 e 1) stage) (jobOf .sensor stage).task (.catEntry 2 0 e 1) stage ∧
       ReadBack.untouched ≠ .asIntended) ∧
    (let stage := Stage.catalogue ⟨[.eraseFormer 0], none, after⟩
     Working (atWork (.catErase 0 1) stage) (jobOf .sensor stage).task (.catErase 0 1) stage) ∧
    TargetStep.erasing.Operates 1 (.catErase 1 1) ∧ (TargetStep.page 0).Operates 1 (.catPage 1 0 2 (tables []) 1) ∧
    (TargetStep.page 15).Operates 3 (.catPage 3 15 2 (tables []) 1) ∧ TargetStep.marking.Operates 3 (.catMark 3 1) := by
  refine ⟨?_, ?_, ?_, ?_, ⟨_, rfl⟩, ⟨_, _, _, rfl⟩, ⟨_, _, _, rfl⟩, ⟨_, rfl⟩⟩ <;> decide +kernel

/-- Each fuse operation in progress for its request, cell A failing with cell B untried and with it failed. -/
theorem witness_FuseOperationsCompleteCommit :
    (let s := { running with job := some (jobOf (.fuseCell .markerB) (.bankMarker true)) }
     s.dev = .running ∧ s.job = some (jobOf (.fuseCell .markerB) (.bankMarker true))) ∧
    (∀ p ∈ [(FuseCell.markerA, Stage.bankMarker false), (.labelMarker, .labelMarker []), (.attemptB, .guardAttempt true),
        (.cellA, .guardFix false), (.cellB, .guardFix true)],
      Working (atWork (.fuseCell p.1) p.2) (jobOf .sensor .sampling).task (.fuseCell p.1) p.2) ∧
    (∀ p ∈ [(FuseArea.bankA, Stage.bankContents false), (.label, .labelContents [])],
      Working (atWork (.fuseBytes p.1 [0x01]) p.2) (jobOf .sensor .sampling).task (.fuseBytes p.1 [0x01]) p.2) ∧
    running.committed.fuse.guardB ≠ .failed ∧ { running.committed.fuse with guardB := .failed }.guardB = .failed := by
  decide +kernel

/-- Reclaim under a permitting profile and under an inhibiting one; one with a sample of the die that is due, paused or
not, at 25 degrees and at -40; a paused one whose profile changed under a sample that is not, of each source; a due sample of the external source, paused or not; an erase in progress, of
background and of forced reclaim. -/
theorem witness_BackgroundReclaimErasesDirtyHead :
    let cold := { running with committed := { running.committed with activeProfile := 1 } }
    let due := { running with
      reclaimPaused := true
      committed := { running.committed with sample := { running.committed.sample with dueMark := true } } }
    (running.resetLow = false ∧ running.dev = .running ∧ running.sleepPending = false ∧ EngineIdle running ∧
      running.reclaimPaused = false ∧ running.committed.cat.readOnly = false ∧ running.committed.due = false ∧
      running.committed.tables.dirty = [9] ∧ running.committed.permits = true) ∧
    (EngineIdle cold ∧ cold.committed.due = false ∧ cold.committed.permits = false ∧ cold.committed.tables.dirty = [9]) ∧
    (∀ paused ∈ [true, false],
      let s := { due with reclaimPaused := paused }
      EngineIdle s ∧ s.committed.due = true ∧ s.committed.activeSource = .internal ∧ s.committed.tables.dirty = [9] ∧
        s.committed.cat.readOnly = false) ∧
    ((due.committed.sampled (dieValue 25000) .internal).permits = true ∧
      (due.committed.sampled (dieValue (-40000)) .internal).permits = false) ∧
    (∀ u ∈ [running, external, hostSource],
      let s := { u with reclaimPaused := true, reconsider := true }
      EngineIdle s ∧ s.reclaimPaused = true ∧ s.reconsider = true ∧ s.committed.due = false ∧
        s.committed.tables.dirty = [9]) ∧
    (∀ paused ∈ [true, false],
      let s := { external with reclaimPaused := paused, committed := dueOf external.committed }
      EngineIdle s ∧ s.committed.due = true ∧ s.committed.activeSource = .external ∧ s.committed.tables.dirty ≠ []) ∧
    ∀ stage ∈ [Stage.backgroundErase 9, .forcedErase (append 0 []) 9],
      Working (atWork (.erase 9 1) stage) (jobOf .sensor .sampling).task (.erase 9 1) stage ∧
        Memory.wf (atWork (.erase 9 1) stage).flash = true := by
  refine ⟨?_, ?_, ?_, ?_, ?_, ?_, ?_⟩ <;> decide +kernel

/-- The bounds of a plausible word in Q2 and in Q12, with ten pulses before TSDA rose; each failure, the first and the
third; the mount's attempt, with fourteen events. -/
theorem witness_SensorAttemptsEnd :
    let task : Machine.Task := ⟨.request 0 (request .sampleTemperature [] 0), external.committed, [], 0⟩
    let s := { external with job := some ⟨task, .sensor, .sampling⟩ }
    let mounting := { external with
      dev := .mounting
      committed := { external.committed with sample := Sample.initial, activeProfile := 0 }
      events := List.replicate 14 ⟨0, raised .tornRecord ⟨0, true⟩ 0 0⟩ }
    (s.dev = .running ∧ s.resetLow = false ∧ task.owner = .request 0 (request .sampleTemperature [] 0) ∧
      external.committed.tables.settings.sensorFormat.toNat ≤ 1 ∧ 10 ≤ 10 ∧ -220 = (0xFF24 : Half).toInt ∧
      (0x0258 : Half).toInt = 600 ∧ -220 ≤ ((0xC900 : Half).toInt / 16) / 4 ∧ ((0x7FF0 : Half).toInt / 16) / 4 ≤ 600) ∧
    (10 < 11 ∧ ¬ (-220 ≤ (0x0259 : Half).toInt ∧ (0x0259 : Half).toInt ≤ 600) ∧ task.work.sample.failures + 1 < 3 ∧
      3 ≤ { task.work.sample with failures := 2 }.failures + 1) ∧
    (mounting.dev = .mounting ∧ mounting.resetLow = false ∧ mounting.mountSampled = false ∧ mounting.job = none ∧
      mounting.committed.sample = Sample.initial ∧ mounting.committed.activeProfile = 0 ∧ mounting.events.length < 15 ∧
      mounting.committed.tables.settings.sensorSource = 0x0000) ∧
    (∀ stage ∈ [Stage.refresh, .backgroundRefresh], ∀ owner ∈ [Owner.request 0 (request .sealStream [0x00] 0), .background],
      let t : Machine.Task := ⟨owner, external.committed, [], 0⟩
      let u := { external with job := some ⟨t, .sensor, stage⟩ }
      u.dev = .running ∧ u.resetLow = false ∧ u.job = some ⟨t, .sensor, stage⟩) ∧
    ((external.committed.sampled 0x0064 .external).permits = true ∧
      (external.committed.sampled 0xFF24 .external).permits = false) := by
  refine ⟨?_, ?_, ?_, ?_, ?_⟩ <;> decide +kernel

end Sys2Proof.Tests
end

section
/-! The check of R3. Run over its own two bytes it ends at 0000h: the first byte cancels the register's high half, so the
eight steps only shift the low half up; the second byte cancels that, and the steps keep 0000h. -/

namespace Sys2Proof.Machine

/-! ### One step and one byte of the check -/

/-- The step tests the register's top bit, bit 15 (R3). -/
theorem checkBit_eq_getLsbD :
    checkBit = fun r => if r.getLsbD 15 then (r <<< 1) ^^^ 0x8005 else r <<< 1 := by
  funext r
  simp only [checkBit, BitVec.msb_eq_getLsbD_last]

/-- Eight steps of one byte, from the register with the byte added at its high end. -/
theorem checkByte_eq_iterate (r : Half) (b : Byte) :
    checkByte r b = checkBit^[8] (r ^^^ (b.zeroExtend 16 <<< 8)) :=
  List.foldl_const checkBit _ (List.range 8)

theorem toNat_checkBit_of_lt {r : Half} (h : r.toNat < 2 ^ 15) : (checkBit r).toNat = r.toNat * 2 := by
  have hmsb : r.msb = false := BitVec.msb_eq_false_iff_two_mul_lt.mpr (by omega)
  simp only [checkBit, hmsb, Bool.false_eq_true, if_false, BitVec.toNat_shiftLeft, Nat.shiftLeft_eq]
  omega

/-- As long as no set bit leaves at the top, the steps only shift. -/
theorem toNat_iterate_checkBit (n : Nat) {r : Half} (h : r.toNat * 2 ^ n < 2 ^ 16) :
    (checkBit^[n] r).toNat = r.toNat * 2 ^ n := by
  induction n with
  | zero => simp
  | succ n ih =>
    have hstep : r.toNat * 2 ^ (n + 1) = r.toNat * 2 ^ n * 2 := by rw [pow_succ, mul_assoc]
    have hn : (checkBit^[n] r).toNat = r.toNat * 2 ^ n := ih (by omega)
    rw [Function.iterate_succ_apply', toNat_checkBit_of_lt (by omega), hn, hstep]

theorem checkBit_zero : checkBit 0 = 0 := by decide

/-- A register whose high half is empty leaves the eight steps with its low half moved up. -/
theorem iterate_checkBit_zeroExtend (b : Byte) : checkBit^[8] (b.zeroExtend 16) = b.zeroExtend 16 <<< 8 := by
  have hb : (b.zeroExtend 16).toNat = b.toNat := BitVec.toNat_setWidth_of_le (by decide)
  apply BitVec.eq_of_toNat_eq
  rw [toNat_iterate_checkBit 8 (by omega), BitVec.toNat_shiftLeft, Nat.shiftLeft_eq]
  omega

/-! ### The two check bytes -/

/-- A half's two bytes, most significant first (R1). -/
theorem be16_toNat (r : Half) : be16 r.toNat = [r.extractLsb' 8 8, r.extractLsb' 0 8] := by
  simp [be16, byteOf, BitVec.extractLsb', Nat.shiftRight_eq_div_pow]

theorem xor_highByte (r : Half) :
    r ^^^ ((r.extractLsb' 8 8).zeroExtend 16 <<< 8) = (r.extractLsb' 0 8).zeroExtend 16 := by
  apply BitVec.eq_of_getLsbD_eq
  intro i hi
  by_cases hlow : i < 8
  · simp [hi, hlow]
  · have hback : 8 + (i - 8) = i := by omega
    have hlt : i - 8 < 8 := by omega
    simp [hi, hlow, hback, hlt]

theorem checkByte_highByte (r : Half) :
    checkByte r (r.extractLsb' 8 8) = (r.extractLsb' 0 8).zeroExtend 16 <<< 8 := by
  rw [checkByte_eq_iterate, xor_highByte, iterate_checkBit_zeroExtend]

theorem checkByte_shifted_self (b : Byte) : checkByte (b.zeroExtend 16 <<< 8) b = 0 := by
  rw [checkByte_eq_iterate, BitVec.xor_self]
  exact Function.iterate_fixed checkBit_zero 8

/-- The register's own two bytes run it to 0000h (R3). -/
theorem foldl_checkByte_own_bytes (r : Half) : (be16 r.toNat).foldl checkByte r = 0 := by
  rw [be16_toNat, List.foldl_cons, List.foldl_cons, List.foldl_nil, checkByte_highByte, checkByte_shifted_self]

/-! ### The check of a sequence -/

theorem check_append (as bs : List Byte) : check (as ++ bs) = bs.foldl checkByte (check as) :=
  List.foldl_append

theorem check_append_checkBytes (bs : List Byte) : check (bs ++ checkBytes bs) = 0 := by
  rw [check_append, checkBytes, foldl_checkByte_own_bytes]

/-- Settles O11: the preset and R3's example by evaluation; the rest from the byte step and the two check bytes. -/
theorem checkIsTheOneOfTheManual : Obligations.CheckIsTheOneOfTheManual := by
  refine ⟨⟨rfl, by decide +kernel, fun bs b => ?byteStep, fun bs => be16_toNat (check bs)⟩, check_append_checkBytes⟩
  case byteStep =>
    calc check (bs ++ [b])
        = checkByte (check bs) b := check_append bs [b]
      _ = checkBit^[8] (check bs ^^^ (b.zeroExtend 16 <<< 8)) := checkByte_eq_iterate _ _
      _ = _ := by rw [checkBit_eq_getLsbD]

end Sys2Proof.Machine
end

section
/-! The unknown lead (R6) and LINK_STATS (R20): what each leaves of the state, said once and then read off field by
field. -/

namespace Sys2Proof.Machine

/-! ### Counters and leads -/

/-- A counter of the link statistics goes up by one and stays at its maximum (R19). -/
theorem satInc_toNat (n : BitVec 8) : (satInc n).toNat = min 255 (n.toNat + 1) := by
  by_cases hmax : n = 0xFF
  · subst hmax; rfl
  · have hne : n.toNat ≠ 255 := fun h => hmax (BitVec.eq_of_toNat_eq h)
    rw [satInc, if_neg hmax]
    bv_omega

/-- The lead table (R5). -/
theorem knownLead_iff_mem (b : Byte) :
    knownLead b = true ↔ b ∈ ([0xA1, 0xA2, 0xA3, 0xA4, 0xC1, 0xC2, 0xC3, 0xC4] : List Byte) := by
  simp [knownLead, or_assoc]

theorem knownLead_eq_false_of_notMem {b : Byte}
    (hb : b ∉ ([0xA1, 0xA2, 0xA3, 0xA4, 0xC1, 0xC2, 0xC3, 0xC4] : List Byte)) : knownLead b = false :=
  Bool.eq_false_iff.mpr fun h => hb ((knownLead_iff_mem b).mp h)

/-- An unknown lead is none of the table's. -/
theorem ne_of_unknown {b l : Byte} (hb : knownLead b = false) (hl : knownLead l = true) : b ≠ l := by
  rintro rfl
  exact absurd hl (Bool.eq_false_iff.mp hb)

/-- Only a FETCH, a REFETCH and a PEEK drive anything but FFh after their lead byte (R4, R5). -/
theorem State.leadBytes_of_unknown (s : State) {b : Byte} (hb : knownLead b = false) (g : Bool) :
    s.leadBytes b g = [] := by
  rw [State.leadBytes, if_neg (ne_of_unknown hb rfl), if_neg (ne_of_unknown hb rfl), if_neg (ne_of_unknown hb rfl)]

/-! ### An unknown lead (R6) -/

/-- The link after the lead point of a byte outside the lead table. -/
def State.unknownLeadPoint (s : State) (b : Byte) : State :=
  { s with
    csLow := true
    txn := .lead b s.resetArm
    leadSdo := some 0xFF
    offered := none
    sdo := .drive [] 0xFF
    resetArm := false
    unknownLeads := satInc s.unknownLeads }

/-- With the link idle, the lead point of an unknown lead counts it and clears the reset-arm flag. -/
theorem LinkIdle.newTxn_of_unknown {s : State} (h : LinkIdle s) {b : Byte} (hb : knownLead b = false) (g : Bool) :
    s.newTxn b g = s.unknownLeadPoint b := by
  rw [h.newTxn_eq, s.leadBytes_of_unknown hb, hb, if_neg (ne_of_unknown hb rfl), if_neg (ne_of_unknown hb rfl)]
  rfl

/-- In an assertion of its own an unknown lead is counted at its lead point, and FFh follows. -/
theorem LinkIdle.doUnknownLead_eq {s : State} (h : LinkIdle s) {b : Byte} (hb : knownLead b = false) :
    s.doUnknownLead b = (s.unknownLeadPoint b).endDriving [] := by
  have hopen : s.openTxn b = s.unknownLeadPoint b := by
    rw [h.openTxn_eq, ← h.newTxn_eq, h.newTxn_of_unknown hb]
  have hdec : (s.unknownLeadPoint b).decoding = some s.resetArm := by
    rw [← hopen]; exact h.decoding_openTxn b s.guardHigh
  simp [State.doUnknownLead, hb, hopen, hdec]

/-- After its lead point an unknown lead is not counted again: FFh goes on being driven. -/
theorem State.doUnknownLead_of_lead {s : State} {b : Byte} {sampled : Bool} (hdec : s.linkDecodes = true)
    (hcs : s.csLow = true) (ht : s.txn = .lead b sampled) (hb : knownLead b = false) :
    s.doUnknownLead b = s.endDriving [] := by
  have hsampled : s.decoding = some sampled := by simp [State.decoding, hdec, ht]
  simp [State.doUnknownLead, hb, State.openTxn_continues ht hcs, hsampled]

theorem exec_unknownLead (b : Byte) (s : State) : exec (.unknownLead b) s = .next (s.doUnknownLead b).settle := rfl

theorem exec_leadByte (l : LeadPoint) (s : State) : exec (.leadByte l) s = .next (s.newTxn l.byte l.guardHigh).settle :=
  rfl

/-- Settles O18: each clause by the one state its row leaves. -/
theorem unknownLeadOnlyCounts : Obligations.UnknownLeadOnlyCounts := by
  refine ⟨?ownAssertion, ?afterLeadPoint, ?leadPointAlone⟩
  case ownAssertion =>
    intro s b h hb
    refine ⟨_, exec_unknownLead b s, ?_⟩
    rw [h.doUnknownLead_eq (knownLead_eq_false_of_notMem hb)]
    exact ⟨rfl, rfl, rfl, rfl, satInc_toNat s.unknownLeads, rfl, fun _ => rfl⟩
  case afterLeadPoint =>
    intro s b sampled hreset hdev hcs ht hb
    have hdec : s.linkDecodes = true := by simp [State.linkDecodes, hreset, hdev]
    refine ⟨_, exec_unknownLead b s, ?_⟩
    rw [State.doUnknownLead_of_lead hdec hcs ht (knownLead_eq_false_of_notMem hb)]
    exact ⟨rfl, rfl, rfl, fun _ => rfl⟩
  case leadPointAlone =>
    intro s b pin h hb
    refine ⟨_, exec_leadByte ⟨b, pin⟩ s, ?_⟩
    rw [h.newTxn_of_unknown (knownLead_eq_false_of_notMem hb)]
    exact ⟨rfl, satInc_toNat s.unknownLeads, rfl⟩

/-! ### The answer of an accepted immediate request -/

/-- The armed kinds are media kinds (R138). -/
theorem Kind.isArmed_of_immediate {k : Kind} : k.isMedia = false → k.isArmed = false := by
  cases k <;> decide

/-- No immediate request is marked armed (R141). -/
theorem armMatches_of_immediate (latch : Option ArmPair) {k : Kind} (hk : k.isMedia = false) (params : List Byte) :
    armMatches latch k params = false := by
  cases latch with
  | none => rfl
  | some p => simp [armMatches, Kind.isArmed_of_immediate hk]

/-- An accepted immediate request other than ARM whose answer leaves the state `w`, but for the link and the Request
Manager: it is DONE with the status and the payload of that answer, and the state is `w` otherwise (R34, R41, R141). -/
theorem TakesImmediate.answers {s : State} {tag : Byte} {k : Kind} (h : TakesImmediate s tag k) (hk : k ≠ .arm)
    {params : List Byte} {env : Env} (hl : params.length ≤ maxParams) {w : State} {st : Status} {payload : List Byte}
    (ha : (s.opened.takeIn k).answer k params env = (w.requestOf (s.opened.takeIn k), st, payload))
    (hflash : w.flash = s.flash) :
    Answered s (s.doImmediate k tag params env).settle k tag params false st payload ∧
      Becomes s (s.doImmediate k tag params env).settle (w.requestOf (s.doImmediate k tag params env).settle) := by
  obtain ⟨i, -, hlow, -, heq⟩ := h.doImmediate_eq params env hl
  have hrequest : s.newRequest k tag params = ⟨tag, k, params, false, s.nextAcceptance⟩ := by
    rw [State.newRequest, armMatches_of_immediate _ h.immediate]
  have hlatch : latchAfter s.armLatch k = none := if_neg hk
  rw [heq, ha, hrequest]
  refine ⟨⟨⟨rfl, rfl, rfl, ?sdo⟩, rfl, rfl, hlatch, i, hlow, rfl⟩, rfl, ?flash⟩
  case sdo => exact congrArg (fun n => Sdo.drive [0xFF, 0x00, byteOf n] 0xFF) (freeCount_set hlow.1 rfl)
  case flash => exact fun a => congrArg (readByte · a) hflash

/-! ### LINK_STATS (R20) -/

/-- A state that is `w` but for the link and the Request Manager has the counters of `w`. -/
theorem State.linkStats_of_requestOf {t w : State} (h : t = w.requestOf t) :
    t.frameErrors = w.frameErrors ∧ t.incompleteFrames = w.incompleteFrames ∧ t.unknownLeads = w.unknownLeads :=
  ⟨(congrArg State.frameErrors h :), (congrArg State.incompleteFrames h :), (congrArg State.unknownLeads h :)⟩

theorem exec_linkStats (tag : Byte) (params : List Byte) (s : State) :
    exec (.linkStats tag params) s = .next (s.doImmediate .linkStats tag params s.noInputs).settle := rfl

/-- Settles O40: the answer to an empty field zeroes the counters it reports, and any other field is malformed. -/
theorem linkStatsReadsAndClears : Obligations.LinkStatsReadsAndClears := by
  intro s tag params hl hacc
  have htakes : TakesImmediate s tag .linkStats := AcceptsAlsoFaulted.takesImmediate hacc rfl rfl
  refine ⟨_, exec_linkStats tag params s, ?_⟩
  by_cases hempty : params = []
  · subst hempty
    obtain ⟨hanswered, hbecomes⟩ := htakes.answers (by decide) hl (env := s.noInputs) (w := s.clearLinkStats)
      (st := .ok) (payload := [s.frameErrors, s.incompleteFrames, s.unknownLeads]) rfl rfl
    generalize (s.doImmediate .linkStats tag [] s.noInputs).settle = t at hanswered hbecomes
    obtain ⟨hstate, hflash⟩ := hbecomes
    obtain ⟨hframe, hincomplete, hunknown⟩ := State.linkStats_of_requestOf hstate
    refine ⟨fun _ => ⟨hframe, hincomplete, hunknown, hanswered⟩, fun hne => absurd rfl hne, ?_, hflash⟩
    rw [hframe, hincomplete, hunknown]
    exact hstate
  · have hmalformed : Malformed s.committed.tables .linkStats params := hempty
    obtain ⟨hanswered, hbecomes⟩ := htakes.declines (by decide) hl
      ((s.opened.takeIn .linkStats).answer_malformed htakes.immediate s.noInputs hmalformed)
    generalize (s.doImmediate .linkStats tag params s.noInputs).settle = t at hanswered hbecomes
    obtain ⟨hstate, hflash⟩ := hbecomes
    obtain ⟨hframe, hincomplete, hunknown⟩ := State.linkStats_of_requestOf hstate
    refine ⟨fun h => absurd h hempty, fun _ => ⟨hframe, hincomplete, hunknown, hanswered⟩, ?_, hflash⟩
    rw [hframe, hincomplete, hunknown]
    exact hstate

end Sys2Proof.Machine
end

section
/-! A SUBMIT that is not ACCEPTED (R33) and a frame abandoned for its length (R8): what each leaves of the state, from the
three things a complete frame can do. -/

namespace Sys2Proof.Machine

/-! ### Intake codes (R27) -/

/-- No two intake codes drive the same byte. -/
theorem Intake.code_injective : Function.Injective Intake.code := by
  have hleft : ∀ c : Intake, [Intake.accepted, .notReady, .frameError, .unknownKind, .tagInUse, .noContext, .queueFull,
      .deviceFault][c.code.toNat]? = some c := by
    intro c; cases c <;> rfl
  intro c d h
  exact Option.some.inj ((hleft c).symm.trans (h ▸ hleft d))

/-- The device state alone never makes a frame error. -/
theorem State.intakeState_ne_frameError (s : State) (kind : Option Kind) : s.intakeState kind ≠ some .frameError := by
  unfold State.intakeState
  cases s.dev with
  | running => simp only; split <;> simp
  | mounting | resetting | deepSleep => simp
  | faulted =>
    cases kind with
    | none => simp
    | some k => simp only; split <;> simp

/-- FRAME_ERROR is the first check of intake and none of those that an intact frame meets (R27). -/
theorem State.intake_ne_frameError (s : State) (kind : Option Kind) (tag : Byte) : s.intake kind tag ≠ .frameError := by
  unfold State.intake
  split
  next code hstate => exact fun hcode => s.intakeState_ne_frameError kind (hcode ▸ hstate)
  next =>
    cases kind with
    | none => simp
    | some k => simp only; split_ifs <;> simp

/-! ### A complete frame (R8, R11, R33) -/

/-- The code driven is the one of intake, for a kind byte with a meaning or without one (R27). -/
theorem State.takeDecision_code (s : State) (kind tag : Byte) (params : List Byte) (env : Env) :
    (s.takeDecision kind tag params env).2 = s.intake (kindOf kind) tag := by
  unfold State.takeDecision
  split <;> next hkind => rw [hkind]

/-- A request that is not ACCEPTED is not taken in (R33). -/
theorem State.takeDecision_of_rejected {s : State} {kind tag : Byte} (h : s.intake (kindOf kind) tag ≠ .accepted)
    (params : List Byte) (env : Env) : (s.takeDecision kind tag params env).1 = s := by
  unfold State.takeDecision
  split
  next k hkind => exact if_neg (hkind ▸ h)
  next => rfl

/-- What a complete frame of a permitted length does: its check fails and it is a frame error, or it is taken in, or the
code of intake is driven and that is all. -/
theorem State.submitFrame_cases (s : State) (kind tag : Byte) {params : List Byte} (chk : Half) (env : Env)
    (hl : params.length ≤ maxParams) :
    (check (frameBytes kind tag params) ≠ chk ∧
      s.submitFrame kind tag params chk env = s.frameError.driveIntake .frameError) ∨
    (check (frameBytes kind tag params) = chk ∧ s.intake (kindOf kind) tag = .accepted ∧
      s.submitFrame kind tag params chk env = (s.takeDecision kind tag params env).1.driveIntake .accepted) ∨
    (check (frameBytes kind tag params) = chk ∧ s.intake (kindOf kind) tag ≠ .accepted ∧
      s.submitFrame kind tag params chk env = s.driveIntake (s.intake (kindOf kind) tag)) := by
  rw [State.submitFrame, if_neg (Nat.not_lt.mpr hl)]
  by_cases hchk : check (frameBytes kind tag params) = chk
  · rw [if_pos hchk, State.submitIntact, s.takeDecision_code]
    by_cases hacc : s.intake (kindOf kind) tag = .accepted
    · exact .inr (.inl ⟨hchk, hacc, by rw [hacc]⟩)
    · exact .inr (.inr ⟨hchk, hacc, by rw [State.takeDecision_of_rejected hacc]⟩)
  · exact .inl ⟨hchk, if_neg hchk⟩

/-! ### The rows SUBMIT and OVER_LONG_FRAME in an assertion of their own -/

theorem LinkIdle.observe_eq {s : State} (h : LinkIdle s) (env : Env) :
    s.observe env = { s with guardHigh := env.guardHigh } := by
  obtain ⟨hreset, hdev, -, -⟩ := h
  simp [State.observe, State.linkDecodes, hreset, hdev]

/-- The link opened for a request, GUARD# looked at. -/
def State.openedWith (s : State) (env : Env) : State := { s with guardHigh := env.guardHigh }.opened

theorem LinkIdle.exec_submit {s : State} (h : LinkIdle s) (kind tag : Byte) (params : List Byte) (chk : Half)
    (env : Env) :
    exec (.submit kind tag params chk env) s =
      .next ((s.openedWith env).submitFrame kind tag params chk env).settle := by
  have hidle : LinkIdle { s with guardHigh := env.guardHigh } := h
  obtain ⟨hopen, hdec⟩ := hidle.opened_eq
  have hsubmit : exec (.submit kind tag params chk env) s =
      .next ((s.observe env).doSubmit kind tag params chk env).settle := rfl
  rw [hsubmit, h.observe_eq, State.doSubmit, hopen, hdec, State.openedWith]

theorem LinkIdle.exec_overLongFrame {s : State} (h : LinkIdle s) (kind tag : Byte) {len : Half}
    (hl : maxParams < len.toNat) : exec (.overLongFrame kind tag len) s = .next s.opened.submitOverLong.settle := by
  obtain ⟨hopen, hdec⟩ := h.opened_eq
  have hrow : exec (.overLongFrame kind tag len) s = .next (s.doOverLong len).settle := rfl
  rw [hrow, State.doOverLong, if_neg (Nat.not_le.mpr hl), hopen]
  simp only [hdec]

/-- The intake code on SDO is that of the decision driven. -/
theorem State.driveIntake_sdo {u : State} {c : Intake} {code free : Byte}
    (h : (u.driveIntake c).settle.sdo = .drive [0xFF, code, free] 0xFF) :
    code = c.code ∧ free = byteOf (freeCount u.contexts) := by
  have hbytes : Sdo.drive [0xFF, c.code, byteOf (freeCount u.contexts)] 0xFF = .drive [0xFF, code, free] 0xFF := h
  simp only [Sdo.drive.injEq, List.cons.injEq, true_and, and_true] at hbytes
  obtain ⟨hcode, hfree⟩ := hbytes
  exact ⟨hcode.symm, hfree.symm⟩

/-- Settles O22: a code other than ACCEPTED stands for a frame error, which counts and latches, or for a decision that
leaves the state but for the link. -/
theorem rejectedSubmitLeavesNoTrace : Obligations.RejectedSubmitLeavesNoTrace := by
  refine ⟨?completeFrame, ?overLong⟩
  case completeFrame =>
    intro s t kind tag params chk env code free h hl hexec hsdo hcode
    rw [h.exec_submit] at hexec
    obtain rfl := Host.Outcome.next.inj hexec
    obtain ⟨-, heq⟩ | ⟨-, -, heq⟩ | ⟨-, -, heq⟩ := (s.openedWith env).submitFrame_cases kind tag chk env hl
    all_goals
      rw [heq] at hsdo ⊢
      obtain ⟨rfl, rfl⟩ := State.driveIntake_sdo hsdo
    case inl =>
      exact ⟨rfl, rfl, rfl, fun _ => ⟨satInc_toNat s.frameErrors, rfl⟩, fun hother => absurd rfl hother, rfl, fun _ => rfl⟩
    case inr.inl => exact absurd rfl hcode
    case inr.inr =>
      exact ⟨rfl, rfl, rfl, fun herror => absurd (Intake.code_injective herror) (State.intake_ne_frameError _ _ _),
        fun _ => ⟨rfl, rfl⟩, rfl, fun _ => rfl⟩
  case overLong =>
    intro s kind tag len h hl
    exact ⟨_, h.exec_overLongFrame kind tag hl, rfl, rfl, satInc_toNat s.frameErrors, rfl, rfl, fun _ => rfl⟩

end Sys2Proof.Machine
end

section
/-! GET_TIME (R166): its answer, which is a report and no more, and the intake of FAULTED, which does not take the kind in
(R28). -/

namespace Sys2Proof.Machine

/-! ### A request that intake does not accept -/

/-- In an assertion of its own, a request that is not ACCEPTED drives the code of intake and does no more (R11, R33). -/
theorem LinkIdle.doImmediate_of_rejected {s : State} (h : LinkIdle s) {k : Kind} {tag : Byte} {params : List Byte}
    (hl : params.length ≤ maxParams) (hrej : s.opened.intake (some k) tag ≠ .accepted) (env : Env) :
    s.doImmediate k tag params env = s.opened.driveIntake (s.opened.intake (some k) tag) := by
  obtain ⟨hopen, hdec⟩ := h.opened_eq
  have hkind : s.opened.intake (kindOf k.code) tag ≠ .accepted := by rwa [kindOf_code]
  simp only [State.doImmediate, hopen, hdec]
  rw [if_neg (Nat.not_lt.mpr hl), State.submitIntact, State.takeDecision_of_rejected hkind, State.takeDecision_code,
    kindOf_code]

/-- FAULTED answers DEVICE_FAULT to every kind that it does not allow, before the tag and the contexts are looked at (R27,
R28). -/
theorem State.intake_of_faulted {s : State} (hdev : s.dev = .faulted) {k : Kind} (hk : k.allowedFaulted = false)
    (tag : Byte) : s.intake (some k) tag = .deviceFault := by
  have hstate : s.intakeState (some k) = some .deviceFault := by simp [State.intakeState, hdev, hk]
  rw [State.intake, hstate]

/-! ### GET_TIME -/

/-- The answer of GET_TIME leaves the state as it is, for an empty field and for any other. -/
theorem State.answerGetTime_eq (s : State) (params : List Byte) :
    s.answerGetTime params = (s, if params = [] then .ok else .badParam,
      if params = [] then be32 s.tick.toNat ++ [flagByte s.timeUnset] ++ be16 s.tickPeriod else []) := by
  cases params with
  | nil => rfl
  | cons => rfl

theorem exec_getTime (tag : Byte) (params : List Byte) (s : State) :
    exec (.getTime tag params) s = .next (s.doImmediate .getTime tag params s.noInputs).settle := rfl

/-- Settles O41: an accepted GET_TIME by its answer, and one in FAULTED by its intake code. -/
theorem getTimeReadsCounter : Obligations.GetTimeReadsCounter := by
  refine ⟨?accepted, ?faulted⟩
  case accepted =>
    intro s tag params hl hacc
    have htakes : TakesImmediate s tag .getTime := hacc.takesImmediate rfl
    exact ⟨_, exec_getTime tag params s,
      htakes.answers (by decide) hl (w := s) ((s.opened.takeIn .getTime).answerGetTime_eq params) rfl⟩
  case faulted =>
    intro s tag params hl hidle hdev
    have hcode : s.opened.intake (some .getTime) tag = .deviceFault := State.intake_of_faulted hdev rfl tag
    have hrej : s.opened.intake (some .getTime) tag ≠ .accepted := by rw [hcode]; decide
    refine ⟨_, exec_getTime tag params s, ?_⟩
    rw [hidle.doImmediate_of_rejected hl hrej, hcode]
    exact ⟨rfl, rfl, rfl, rfl, rfl, fun _ => rfl⟩

end Sys2Proof.Machine
end

section
/-! What a command can do to the state as a whole, said once: the moves of the engine, and the relation every command keeps
(the queue, the canonical form of the array's memory, the limits of the context table and of the event list, what clears
TIME_UNSET and the alarms, the fuse cells). The invariants of the whole machine are read off it. -/

namespace Sys2Proof.Machine

/-! ### The moves of the engine -/

/-- The engine's work on `s` ends in one of four ways: nothing is done, an operation begins, the owner's work completes, or
a background operation ends (R37, R41, R58). -/
inductive EngineMove (s : State) : State → Prop
  | stays : EngineMove s s
  | begins (t : Task) (op : Operation) (stage : Stage) : EngineMove s (s.begin t op stage)
  | completes (t : Task) (st : Status) (payload : List Byte) : EngineMove s (s.complete t st payload)
  | backgroundEnds (t : Task) (paused : Bool) : EngineMove s (s.endBackground t paused)

@[simp] theorem EngineMove.begin_move (s : State) (t : Task) (op : Operation) (stage : Stage) :
    EngineMove s (s.begin t op stage) := .begins t op stage

@[simp] theorem EngineMove.complete_move (s : State) (t : Task) (st : Status) (payload : List Byte) :
    EngineMove s (s.complete t st payload) := .completes t st payload

@[simp] theorem EngineMove.endBackground_move (s : State) (t : Task) (paused : Bool) :
    EngineMove s (s.endBackground t paused) := .backgroundEnds t paused

@[simp] theorem State.refuse_move (s : State) (t : Task) (st : Status) : EngineMove s (s.refuse t st) :=
  .completes t st []

@[simp] theorem State.guardFails_move (s : State) (t : Task) : EngineMove s (s.guardFails t) := .completes _ _ _

@[simp] theorem State.appendFails_move (s : State) (t : Task) (a : AppendData) (st : Status) :
    EngineMove s (s.appendFails t a st) := .completes _ _ _

@[simp] theorem State.poolEmpty_move (s : State) (t : Task) (a : AppendData) : EngineMove s (s.poolEmpty t a) :=
  .completes _ _ _

@[simp] theorem State.startBody_move (s : State) (t : Task) (a : AppendData) (seg : Nat) :
    EngineMove s (s.startBody t a seg) := .begins _ _ _

@[simp] theorem State.entryUnwritten_move (s : State) (t : Task) (after : After) :
    EngineMove s (s.entryUnwritten t after) := by
  unfold State.entryUnwritten; split
  · simp
  · split <;> simp

@[simp] theorem State.writeEntry_move (s : State) (t : Task) (e : Entry) (after : After) :
    EngineMove s (s.writeEntry t e after) := by
  unfold State.writeEntry; split <;> simp

@[simp] theorem State.makeSuspect_move (s : State) (t : Task) (id seg : Nat) (after : After) :
    EngineMove s (s.makeSuspect t id seg after) := State.writeEntry_move _ _ _ _

@[simp] theorem State.evict_move (s : State) (t : Task) (a : AppendData) : EngineMove s (s.evict t a) := by
  unfold State.evict; dsimp only; split <;> simp

@[simp] theorem State.allocate_move (s : State) (t : Task) (a : AppendData) : EngineMove s (s.allocate t a) := by
  unfold State.allocate; dsimp only; split
  · simp
  · split
    · simp
    · split <;> simp

@[simp] theorem State.newSegment_move (s : State) (t : Task) (a : AppendData) : EngineMove s (s.newSegment t a) := by
  unfold State.newSegment; dsimp only; split
  · simp
  · split <;> simp

@[simp] theorem State.workAppend_move (s : State) (t : Task) (id : Nat) (marker : Bool) (payload : List Byte) :
    EngineMove s (s.workAppend t id marker payload) := by
  unfold State.workAppend; dsimp only; split
  · simp
  · split <;> simp

@[simp] theorem State.workTrim_move (s : State) (t : Task) (id k : Nat) : EngineMove s (s.workTrim t id k) := by
  unfold State.workTrim; dsimp only; split <;> simp

@[simp] theorem State.workFixGuard_move (s : State) (t : Task) : EngineMove s (s.workFixGuard t) := by
  unfold State.workFixGuard; split
  · simp
  · split <;> simp

@[simp] theorem State.formatTarget_move (s : State) (t : Task) (targets bad : List Nat) :
    EngineMove s (s.formatTarget t targets bad) := by
  unfold State.formatTarget; split <;> simp

@[simp] theorem State.startWork_move (s : State) (t : Task) (r : Request) : EngineMove s (s.startWork t r) := by
  unfold State.startWork State.workCreate State.workDelete State.workSeal State.workSetHold State.workClearHold
    State.workFormat State.workOption State.workCommit State.workLabel
  split
  case h_8 => split <;> simp
  all_goals first
    | simp; done
    | split <;> simp

@[simp] theorem State.afterRefresh_move (s : State) (t : Task) (r : Request) : EngineMove s (s.afterRefresh t r) := by
  unfold State.afterRefresh; split <;> simp

@[simp] theorem State.stepsFiveSix_move (s : State) (t : Task) (r : Request) (env : Env) :
    EngineMove s (s.stepsFiveSix t r env) := by
  unfold State.stepsFiveSix; split
  · simp
  · split
    · split <;> simp
    · simp

/-- Reading ends at once (R103 to R109). -/
theorem State.startRead_move (s : State) (t : Task) (params : List Byte) : EngineMove s (s.startRead t params) := by
  unfold State.startRead; dsimp only
  repeat' split
  all_goals simp

theorem State.startReadNext_move (s : State) (t : Task) (params : List Byte) :
    EngineMove s (s.startReadNext t params) := by
  unfold State.startReadNext; dsimp only
  repeat' split
  all_goals simp

theorem State.startSeek_move (s : State) (t : Task) (params : List Byte) : EngineMove s (s.startSeek t params) := by
  unfold State.startSeek; dsimp only
  repeat' split
  all_goals simp

/-- A request of the Thermal Unit ends at once, or waits for an attempt on the sensor bus (R126, R128, R129). -/
theorem State.startThermal_move (s : State) (t : Task) (params : List Byte) (env : Env) :
    EngineMove s (s.startSample t params env) ∧ EngineMove s (s.startSetTemperature t params) ∧
      EngineMove s (s.startWriteProfile t params env) := by
  refine ⟨?sample, ?set, ?write⟩
  case sample => unfold State.startSample; repeat' split
                 all_goals simp
  case set => unfold State.startSetTemperature; repeat' split
              all_goals simp
  case write => unfold State.startWriteProfile; repeat' split
                all_goals simp

/-- The checks of a modifying request refuse it, complete it, or lead on to step 5 (R39). -/
theorem State.startModifying_move (s : State) (t : Task) (r : Request) (env : Env) :
    (EngineMove s (s.startAppend t r env) ∧ EngineMove s (s.startTrim t r env) ∧ EngineMove s (s.startCreate t r env) ∧
      EngineMove s (s.startDelete t r env) ∧ EngineMove s (s.startSeal t r env) ∧ EngineMove s (s.startSetHold t r env)) ∧
    EngineMove s (s.startClearHold t r env) ∧ EngineMove s (s.startFormat t r env) ∧
      EngineMove s (s.startOption t r env) ∧ EngineMove s (s.startCommit t r env) ∧
      EngineMove s (s.startLabel t r env) ∧ EngineMove s (s.startFixGuard t r env) := by
  unfold State.startAppend State.startTrim State.startCreate State.startDelete State.startSeal State.startSetHold
    State.startClearHold State.startFormat State.startOption State.startCommit State.startLabel State.startFixGuard
  dsimp only
  refine ⟨⟨?_, ?_, ?_, ?_, ?_, ?_⟩, ?_, ?_, ?_, ?_, ?_, ?_⟩
  all_goals
    repeat' split
    all_goals simp

theorem State.startKind_move (s : State) (t : Task) (r : Request) (env : Env) : EngineMove s (s.startKind t r env) := by
  obtain ⟨hsample, hset, hwrite⟩ := s.startThermal_move t r.params env
  obtain ⟨⟨happend, htrim, hcreate, hdelete, hseal, hhold⟩, hclear, hformat, hoption, hcommit, hlabel, hfix⟩ :=
    s.startModifying_move t r env
  unfold State.startKind
  split
  case h_1 => exact s.startRead_move t r.params
  case h_2 => exact s.startReadNext_move t r.params
  case h_3 => exact s.startSeek_move t r.params
  all_goals first
    | assumption
    | exact s.refuse_move t _

@[simp] theorem State.backgroundRefreshed_move (s : State) (t : Task) : EngineMove s (s.backgroundRefreshed t) := by
  unfold State.backgroundRefreshed; split
  · split <;> simp
  · simp

theorem State.startBackground_move (s : State) (refresh : Bool) (env : Env) :
    EngineMove s (s.startBackground refresh env) := by
  unfold State.startBackground; dsimp only
  split
  · split <;> simp
  · simp

@[simp] theorem State.afterWriter_move (s : State) (t : Task) (after : After) : EngineMove s (s.afterWriter t after) := by
  unfold State.afterWriter; split
  case h_5 => split <;> simp
  all_goals simp

@[simp] theorem State.runWriter_move (s : State) (after : After) (n : WriterNext) :
    EngineMove s (s.runWriter after n) := by
  unfold State.runWriter; split <;> simp

/-- The end of a record's body, mark or descriptor program (R53, R90, R99). -/
theorem State.recordEnds_move (s : State) (t : Task) (a : AppendData) (seg slot : Nat) (ok : Bool) :
    EngineMove s (s.bodyEnds t a seg slot ok) ∧ EngineMove s (s.markEnds t a seg slot ok) ∧
      EngineMove s (s.descriptorEnds t a seg ok) := by
  unfold State.bodyEnds State.markEnds State.descriptorEnds
  dsimp only
  refine ⟨?_, ?_, ?_⟩
  all_goals
    repeat' split
    all_goals simp

theorem State.formatEnds_move (s : State) (t : Task) (targets bad : List Nat) (step : TargetStep) (ok : Bool) :
    EngineMove s (s.formatEnds t targets bad step ok) := by
  unfold State.formatEnds State.formatDone; dsimp only
  repeat' split
  all_goals simp

/-- The end of a fuse program (R144, R150, R152). -/
theorem State.fuseEnds_move (s : State) (t : Task) (second : Bool) (bytes : List Byte) (ok : Bool) :
    (EngineMove s (s.guardAttemptEnds t second ok) ∧ EngineMove s (s.guardFixEnds t second ok)) ∧
      (EngineMove s (s.bankMarkerEnds t second ok) ∧ EngineMove s (s.bankContentsEnds t second ok)) ∧
      EngineMove s (s.labelMarkerEnds t bytes ok) ∧ EngineMove s (s.labelContentsEnds t bytes ok) := by
  unfold State.guardAttemptEnds State.guardFixEnds State.bankMarkerEnds State.bankContentsEnds State.labelMarkerEnds
    State.labelContentsEnds
  dsimp only
  refine ⟨⟨?_, ?_⟩, ⟨?_, ?_⟩, ?_, ?_⟩
  all_goals
    repeat' split
    all_goals simp

theorem State.stageEnds_move (s : State) (j : Job) (ok tripped : Bool) : EngineMove s (s.stageEnds j ok tripped) := by
  unfold State.stageEnds State.backgroundEraseEnds State.forcedEraseEnds
  split
  case h_3 => exact (s.recordEnds_move _ _ _ 0 ok).2.2
  case h_5 => exact (s.recordEnds_move _ _ _ _ ok).1
  case h_6 => exact (s.recordEnds_move _ _ _ _ ok).2.1
  case h_7 => exact s.formatEnds_move _ _ _ _ ok
  case h_8 => exact (s.fuseEnds_move _ _ [] ok).1.1
  case h_9 => exact (s.fuseEnds_move _ _ [] ok).1.2
  case h_10 => exact (s.fuseEnds_move _ _ [] ok).2.1.1
  case h_11 => exact (s.fuseEnds_move _ _ [] ok).2.1.2
  case h_12 => exact (s.fuseEnds_move _ false _ ok).2.2.1
  case h_13 => exact (s.fuseEnds_move _ false _ ok).2.2.2
  case h_14 | h_15 | h_16 => exact .stays
  all_goals simp

theorem State.sensorEnds_move (s : State) (j : Job) (e : AttemptEnd) (env : Env) :
    EngineMove s (s.sensorEnds j e env) := by
  unfold State.sensorEnds; dsimp only
  repeat' split
  all_goals simp

end Sys2Proof.Machine
end

section
namespace Sys2Proof.Machine

/-! ### What every command keeps -/

/-- `t` follows from `s` with the queue, the array's form, the limits, the fuse cells that are blown and the identity kept.
TIME_UNSET may be cleared only if `time` holds, and an alarm only if `alarm` does. -/
structure Keeps (time alarm : Prop) (s t : State) : Prop where
  pending : t.pending = s.pending
  arrayForm : ArrayForm s → ArrayForm t
  contexts : ContextLimits s → ContextLimits t
  events : EventLimit s → EventLimit t
  timeUnset : ¬ time → s.timeUnset = true → t.timeUnset = true
  alarms : ¬ alarm → s.alarms &&& t.alarms = s.alarms
  cells : ∀ x, s.fuses.cell x = true → t.fuses.cell x = true
  identity : t.fuses.identity = s.fuses.identity ∧ t.fuses.identityCheck = s.fuses.identityCheck

/-- The alarms of `a` are latched in `b`, and those of `b` in `c`. -/
theorem alarms_trans {a b c : BitVec 6} (hab : a &&& b = a) (hbc : b &&& c = b) : a &&& c = a := by
  rw [← hab, BitVec.and_assoc, hbc]

theorem Keeps.trans {time alarm : Prop} {s t u : State} (h : Keeps time alarm s t) (h' : Keeps time alarm t u) :
    Keeps time alarm s u where
  pending := h'.pending.trans h.pending
  arrayForm hs := h'.arrayForm (h.arrayForm hs)
  contexts hs := h'.contexts (h.contexts hs)
  events hs := h'.events (h.events hs)
  timeUnset hc hs := h'.timeUnset hc (h.timeUnset hc hs)
  alarms hc := alarms_trans (h.alarms hc) (h'.alarms hc)
  cells x hx := h'.cells x (h.cells x hx)
  identity := ⟨h'.identity.1.trans h.identity.1, h'.identity.2.trans h.identity.2⟩

theorem Keeps.mono {time alarm time' alarm' : Prop} {s t : State} (h : Keeps time alarm s t) (ht : time → time')
    (ha : alarm → alarm') : Keeps time' alarm' s t :=
  { h with timeUnset := fun hc => h.timeUnset (mt ht hc), alarms := fun hc => h.alarms (mt ha hc) }

/-- Whatever leaves the queue, the array, the fuse store, the contexts, the events, TIME_UNSET and the alarms alone. -/
theorem Keeps.of_eq {time alarm : Prop} {s t : State} (hp : t.pending = s.pending) (hf : t.flash = s.flash)
    (hc : t.contexts = s.contexts) (he : t.events = s.events) (ht : t.timeUnset = s.timeUnset)
    (ha : t.alarms = s.alarms) (hu : t.fuses = s.fuses) : Keeps time alarm s t where
  pending := hp
  arrayForm := by rw [ArrayForm, ArrayForm, hf]; exact id
  contexts := by rw [ContextLimits, ContextLimits, hc]; exact id
  events := by rw [EventLimit, EventLimit, he]; exact id
  timeUnset _ hs := by rw [ht, hs]
  alarms _ := by rw [ha, BitVec.and_self]
  cells x hx := by rw [hu, hx]
  identity := by rw [hu]; exact ⟨rfl, rfl⟩

theorem Keeps.refl {time alarm : Prop} (s : State) : Keeps time alarm s s := .of_eq rfl rfl rfl rfl rfl rfl rfl

section
variable {time alarm : Prop}

/-! ### Contexts -/

/-- Putting into the table a context that is neither EXECUTING nor a media context keeps its limits (R24). -/
theorem ContextLimits.set_other {cs : List Context} {i : Nat} {c : Context} (he : c.isExecuting = false)
    (hm : c.isMedia = false)
    (h : cs.length = contextCount ∧ cs.countP Context.isExecuting ≤ 1 ∧ mediaCount cs ≤ maxMedia) :
    (cs.set i c).length = contextCount ∧ (cs.set i c).countP Context.isExecuting ≤ 1 ∧
      mediaCount (cs.set i c) ≤ maxMedia := by
  obtain ⟨hlen, hexec, hmedia⟩ := h
  refine ⟨by rw [List.length_set, hlen], ?_, ?_⟩
  all_goals
    by_cases hi : i < cs.length
    · rw [mediaCount] at *
      rw [List.countP_set hi]
      simp only [he, hm, Bool.false_eq_true, if_false]
      omega
    · rwa [List.set_eq_of_length_le (Nat.le_of_not_lt hi)]

/-- A context of the table is replaced by one that is FREE, DONE, or QUEUED with no media request. -/
theorem Keeps.of_set {s t : State} {i : Nat} {c : Context} (he : c.isExecuting = false) (hm : c.isMedia = false)
    (hp : t.pending = s.pending) (hf : t.flash = s.flash) (hc : t.contexts = s.contexts.set i c)
    (hev : t.events = s.events) (ht : t.timeUnset = s.timeUnset) (ha : t.alarms = s.alarms)
    (hu : t.fuses = s.fuses) : Keeps time alarm s t :=
  { Keeps.of_eq (t := { t with contexts := s.contexts }) hp hf rfl hev ht ha hu with
    contexts := by rw [ContextLimits, ContextLimits, hc]; exact ContextLimits.set_other he hm }

theorem State.finish_keeps (s : State) (i : Nat) (r : Request) (st : Status) (payload : List Byte) :
    Keeps time alarm s (s.finish i r st payload) :=
  .of_set rfl rfl rfl rfl rfl rfl rfl rfl rfl

/-! ### Events and alarms -/

/-- Latching alarms and recording events. -/
theorem State.recordAll_keeps (es : List Raised) (s : State) : Keeps time alarm s (s.recordAll es) := by
  have hframe := State.recordAll_frame es s
  have hlimit : ∀ (es : List Raised) (s : State), EventLimit s → EventLimit (s.recordAll es) := by
    intro es
    induction es with
    | nil => exact fun _ h => h
    | cons e rest ih => exact fun s h => ih (s.record e) (s.record_events_length e h)
  rw [hframe]
  exact { Keeps.of_eq (s := s) (t := s) rfl rfl rfl rfl rfl rfl rfl with
    events := fun h => by have := hlimit es s h; rw [hframe] at this; exact this }

theorem State.record_keeps (s : State) (e : Raised) : Keeps time alarm s (s.record e) := s.recordAll_keeps [e]

theorem State.latch_keeps (s : State) (a : BitVec 6) : Keeps time alarm s (s.latch a) :=
  { Keeps.refl (time := time) (alarm := alarm) s with alarms := fun _ => alarms_or s.alarms a }

theorem State.comparePool_keeps (s : State) : Keeps time alarm s s.comparePool := by
  unfold State.comparePool; dsimp only
  split
  · split
    · exact Keeps.trans (t := { s with poolLow := true, poolLowArmed := false })
        (.of_eq rfl rfl rfl rfl rfl rfl rfl) (State.record_keeps _ _)
    · exact .of_eq rfl rfl rfl rfl rfl rfl rfl
  · exact .of_eq rfl rfl rfl rfl rfl rfl rfl

/-! ### The engine -/

theorem State.commit_keeps (s : State) (t : Task) : Keeps time alarm s (s.commit t) := by
  have hend : ∀ v : State, Keeps time alarm s v → Keeps time alarm s
      (if (v.recordAll t.events).dev = .faulted then v.recordAll t.events else (v.recordAll t.events).comparePool) := by
    intro v hv
    have hrec : Keeps time alarm s (v.recordAll t.events) := hv.trans (v.recordAll_keeps t.events)
    split
    · exact hrec
    · exact hrec.trans (State.comparePool_keeps _)
  unfold State.commit
  exact hend _ ((s.latch_keeps t.alarms).trans (.of_eq rfl rfl rfl rfl rfl rfl rfl))

theorem EngineMove.keeps {s t : State} (h : EngineMove s t) : Keeps time alarm s t := by
  cases h with
  | stays => exact .refl s
  | begins t op stage => exact .of_eq rfl rfl rfl rfl rfl rfl rfl
  | completes t st payload =>
    unfold State.complete
    split
    · exact (s.commit_keeps t).trans (State.finish_keeps _ _ _ _ _)
    · exact s.commit_keeps t
  | backgroundEnds t paused => exact (s.commit_keeps t).trans (.of_eq rfl rfl rfl rfl rfl rfl rfl)

theorem FuseStore.afterCell_cell {f : FuseStore} {x : FuseCell} (hx : f.cell x = true) (c : FuseCell) (rb : ReadBack) :
    (f.afterCell c rb).cell x = true := by
  cases c <;> cases x <;> simp_all [FuseStore.afterCell, FuseStore.cell]

theorem FuseStore.afterCell_identity (f : FuseStore) (c : FuseCell) (rb : ReadBack) :
    (f.afterCell c rb).identity = f.identity ∧ (f.afterCell c rb).identityCheck = f.identityCheck := by
  cases c <;> exact ⟨rfl, rfl⟩

/-- What an operation leaves keeps the array's form and unprograms no fuse cell (R47, R145). -/
theorem State.land_keeps (s : State) (op : Operation) (rb : ReadBack) (tripped : Bool) :
    Keeps time alarm s (s.land op rb tripped) := by
  have hrest : Keeps time alarm s { s with catSegs := (s.land op rb tripped).catSegs } :=
    .of_eq rfl rfl rfl rfl rfl rfl rfl
  rw [State.land_frame]
  refine { hrest with arrayForm := ?form, cells := ?cells, identity := ?identity }
  case form =>
    intro h
    have := State.land_arrayForm h op rb tripped
    rw [State.land_frame] at this
    exact this
  case cells =>
    cases op with
    | fuseCell c => exact fun x hx => FuseStore.afterCell_cell hx c rb
    | fuseBytes ar bytes => cases ar <;> exact fun x hx => by cases x <;> exact hx
    | _ => exact fun x hx => hx
  case identity =>
    cases op with
    | fuseCell c => exact FuseStore.afterCell_identity s.fuses c rb
    | fuseBytes ar bytes => cases ar <;> exact ⟨rfl, rfl⟩
    | _ => exact ⟨rfl, rfl⟩

theorem State.operationEnds_keeps (s : State) (j : Job) (rb : ReadBack) (tripped : Bool) :
    Keeps time alarm s (s.operationEnds j rb tripped) := by
  refine (s.land_keeps j.op rb tripped).trans ?_
  unfold State.operationEnds; dsimp only
  split
  · unfold State.drainEnds
    repeat' split
    all_goals exact .of_eq rfl rfl rfl rfl rfl rfl rfl
  · exact (State.stageEnds_move _ _ _ _).keeps

/-- The oldest QUEUED context is QUEUED. -/
theorem nextQueued_spec {cs : List Context} {i : Nat} (h : nextQueued cs = some i) :
    ∃ r, cs[i]? = some (.held r .queued) := by
  obtain ⟨⟨j, n⟩, hmin, rfl⟩ := Option.map_eq_some_iff.mp h
  obtain hbest | ⟨k, c, hk, hc, hn⟩ := lowestBy_mem _ _ _ _ _ _ hmin
  · cases hbest
  · cases c with
    | free => cases hn
    | held r p => cases p with
      | queued => exact ⟨r, by rw [hk, Nat.zero_add, hc]⟩
      | executing => cases hn
      | done => cases hn

/-- A QUEUED request enters EXECUTING where none is (R24, R37). -/
theorem State.markExecuting_keeps {s : State} {i : Nat} {r : Request} (hi : s.contexts[i]? = some (.held r .queued))
    (hidle : s.contexts.any Context.isExecuting = false) : Keeps time alarm s (s.markExecuting i r) := by
  refine { Keeps.refl (time := time) (alarm := alarm) s with contexts := ?_ }
  rintro ⟨hlen, -, hmedia⟩
  obtain ⟨hlt, hget⟩ := List.getElem?_eq_some_iff.mp hi
  have hexec : s.contexts.countP Context.isExecuting = 0 := by
    rw [List.countP_eq_zero]; intro c hc; exact List.any_eq_false.mp hidle c hc
  refine ⟨by rw [State.markExecuting, List.length_set, hlen], ?_, ?_⟩
  · rw [State.markExecuting, List.countP_set hlt, hexec, Nat.zero_sub, Nat.zero_add]
    split <;> omega
  · rw [mediaCount] at *
    have hpos : r.kind.isMedia = true → 1 ≤ s.contexts.countP Context.isMedia := by
      intro hk
      exact List.countP_pos_iff.mpr ⟨_, List.mem_of_getElem? hi, hk⟩
    rw [State.markExecuting, List.countP_set hlt, hget]
    change s.contexts.countP Context.isMedia - (if r.kind.isMedia = true then 1 else 0) +
      (if r.kind.isMedia = true then 1 else 0) ≤ maxMedia
    split
    case isTrue hk => have := hpos hk; omega
    case isFalse => omega

theorem State.startNext_keeps (s : State) (env : Env) : Keeps time alarm s (s.startNext env) := by
  unfold State.startNext
  split
  case isTrue hready =>
    split
    · exact .refl s
    · rename_i i hnext
      obtain ⟨r, hi⟩ := nextQueued_spec hnext
      have hget : s.contexts.getD i .free = .held r .queued := by rw [List.getD, hi]; rfl
      have hidle : s.contexts.any Context.isExecuting = false := by
        simp only [State.idleMedia, Bool.and_eq_true, Bool.not_eq_true'] at hready
        exact hready.1.2
      rw [hget]
      exact (State.markExecuting_keeps hi hidle).trans (State.startKind_move _ _ _ _).keeps
  case isFalse => exact .refl s

theorem State.observe_keeps (s : State) (env : Env) : Keeps time alarm s (s.observe env) := by
  unfold State.observe
  split
  · exact .of_eq rfl rfl rfl rfl rfl rfl rfl
  · exact .refl s

end

end Sys2Proof.Machine
end

section
namespace Sys2Proof.Machine

section
variable {time alarm : Prop}

/-! ### The link -/

theorem State.csRise_keeps (s : State) : Keeps time alarm s s.csRise := .of_eq rfl rfl rfl rfl rfl rfl rfl

theorem State.newTxn_keeps (s : State) (b : Byte) (g : Bool) : Keeps time alarm s (s.newTxn b g) := by
  rw [State.newTxn_frame]; exact .of_eq rfl rfl rfl rfl rfl rfl rfl

theorem State.openTxn_keeps (s : State) (b : Byte) (g : Bool) : Keeps time alarm s (s.openTxn b g) := by
  rw [State.openTxn_frame]; exact .of_eq rfl rfl rfl rfl rfl rfl rfl

/-- What follows the opening of a transaction, decoded or not. -/
theorem State.decoded_keeps {s t : State} (h : Keeps time alarm s t) (act : Bool → State)
    (hact : ∀ sampled, Keeps time alarm t (act sampled)) :
    Keeps time alarm s (match t.decoding with
      | none => t
      | some sampled => act sampled) := by
  split
  · exact h
  · exact h.trans (hact _)

theorem State.frameError_keeps (s : State) : Keeps time alarm s s.frameError :=
  .trans (t := { s with frameErrors := satInc s.frameErrors }) (.of_eq rfl rfl rfl rfl rfl rfl rfl)
    (State.latch_keeps _ alarmLinkError)

theorem State.submitOverLong_keeps (s : State) : Keeps time alarm s s.submitOverLong :=
  s.frameError_keeps.trans (.of_eq rfl rfl rfl rfl rfl rfl rfl)

theorem State.driveIntake_keeps (s : State) (code : Intake) : Keeps time alarm s (s.driveIntake code) :=
  .of_eq rfl rfl rfl rfl rfl rfl rfl

theorem State.control_keeps (s : State) (lead complement : Byte) (act : State → Bool → State × Byte)
    (hact : ∀ t sampled, Keeps time alarm t (act t sampled).1) : Keeps time alarm s (s.control lead complement act) := by
  refine State.decoded_keeps (s.openTxn_keeps lead s.guardHigh) _ fun sampled => ?_
  split
  · exact (hact _ sampled).trans (.of_eq rfl rfl rfl rfl rfl rfl rfl)
  · exact .of_eq rfl rfl rfl rfl rfl rfl rfl

theorem State.doDelivery_keeps (s : State) : Keeps time alarm s s.doDelivery := by
  unfold State.doDelivery
  split
  · split
    · split
      · exact .refl s
      · exact .of_set (c := .free) rfl rfl rfl rfl rfl rfl rfl rfl rfl
    · exact .refl s
  · exact .refl s

/-! ### Requests -/

theorem State.abortAll_keeps (form : AbortForm) (fuel : Nat) (s : State) :
    Keeps time alarm s (State.abortAll form fuel s).1 := by
  induction fuel generalizing s with
  | zero => exact .refl s
  | succ fuel ih =>
    unfold State.abortAll
    split
    · exact .refl s
    · rename_i s' hone
      refine Keeps.trans ?_ (ih s')
      unfold State.abortOne at hone
      split at hone
      · cases hone
      · split at hone
        · cases hone; exact State.finish_keeps _ _ _ _ _
        · cases hone

/-- An immediate request clears TIME_UNSET only if it is a SET_TIME, and an alarm only if it is a CLEAR_ALARMS (R164,
R178). -/
theorem State.answer_keeps (s : State) (k : Kind) (params : List Byte) (env : Env) :
    Keeps (k = .setTime) (k = .clearAlarms) s (s.answer k params env).1 := by
  have hreport : ∀ st, Keeps (k = .setTime) (k = .clearAlarms) s (s.declines st).1 := fun _ => .refl s
  cases k with
  | releaseEvents =>
    dsimp only [State.answer, State.answerReleaseEvents]
    split
    · exact hreport _
    · exact { Keeps.refl s with
        events := fun h => by rw [EventLimit, List.length_drop]; exact Nat.le_trans (Nat.sub_le _ _) h }
  | clearAlarms =>
    dsimp only [State.answer, State.answerClearAlarms]
    split
    · exact hreport _
    · exact { Keeps.refl (alarm := Kind.clearAlarms = .clearAlarms) s with alarms := fun h => absurd rfl h }
  | setTime =>
    dsimp only [State.answer, State.answerSetTime]
    split
    · exact hreport _
    · split
      · exact hreport _
      · exact { Keeps.refl (time := Kind.setTime = .setTime) s with timeUnset := fun h => absurd rfl h }
  | linkStats =>
    dsimp only [State.answer, State.answerLinkStats]
    split
    · exact hreport _
    · exact .of_eq rfl rfl rfl rfl rfl rfl rfl
  | arm =>
    dsimp only [State.answer, State.answerArm]
    split
    · exact hreport _
    · exact .of_eq rfl rfl rfl rfl rfl rfl rfl
  | abort =>
    dsimp only [State.answer, State.answerAbort]
    split
    · exact hreport _
    · exact State.abortAll_keeps _ _ s
  | getIdentity => dsimp only [State.answer, State.answerIdentity]; split <;> exact hreport .ok
  | getSettings => dsimp only [State.answer, State.answerSettings]; split <;> exact hreport .ok
  | streamInfo => dsimp only [State.answer, State.answerStreamInfo]; split <;> exact hreport .ok
  | poolInfo => dsimp only [State.answer, State.answerPoolInfo]; split <;> exact hreport .ok
  | readProfiles => dsimp only [State.answer, State.answerProfiles]; split <;> exact hreport .ok
  | readEvents => dsimp only [State.answer, State.answerReadEvents]; split <;> exact hreport .ok
  | getTime => dsimp only [State.answer, State.answerGetTime]; split <;> exact hreport .ok
  | _ => exact hreport .ok

/-- A media request that waits in a FREE context keeps the limits where a media context is still to be had (R24, R31). -/
theorem Keeps.queued {s t : State} {i : Nat} {r : Request} (hroom : r.kind.isMedia = true → mediaCount s.contexts < maxMedia)
    (h : Keeps time alarm s { t with contexts := s.contexts })
    (hc : t.contexts = s.contexts.set i (.held r .queued)) : Keeps time alarm s t where
  pending := h.pending
  arrayForm := h.arrayForm
  events := h.events
  timeUnset := h.timeUnset
  alarms := h.alarms
  cells := h.cells
  identity := h.identity
  contexts := by
    rintro ⟨hlen, hexec, hmedia⟩
    rw [ContextLimits, hc]
    refine ⟨by rw [List.length_set, hlen], ?_, ?_⟩
    all_goals
      by_cases hi : i < s.contexts.length
      · rw [mediaCount] at *
        rw [List.countP_set hi]
        have hq : (Context.held r .queued).isExecuting = false := rfl
        have hm : (Context.held r .queued).isMedia = r.kind.isMedia := rfl
        simp only [hq, hm]
        split <;> split <;> simp_all <;> omega
      · rwa [List.set_eq_of_length_le (Nat.le_of_not_lt hi)]

theorem State.accept_keeps {s : State} {k : Kind} {tag : Byte} (params : List Byte) (env : Env)
    (hroom : k.isMedia = true → mediaCount s.contexts < maxMedia) :
    Keeps (k = .setTime) (k = .clearAlarms) s (s.accept k tag params env) := by
  unfold State.accept
  split
  · exact .refl s
  · dsimp only
    split
    · exact Keeps.queued (r := s.newRequest k tag params) hroom (.of_eq rfl rfl rfl rfl rfl rfl rfl) rfl
    · refine Keeps.trans (t := s.takeIn k) (.of_eq rfl rfl rfl rfl rfl rfl rfl) ?_
      exact (State.answer_keeps _ _ _ _).trans (State.finish_keeps _ _ _ _ _)

/-- Intake accepts a media request only while fewer than six media contexts are in use (R27, R31). -/
theorem State.mediaRoom_of_accepted {s : State} {k : Kind} {tag : Byte} (h : s.intake (some k) tag = .accepted)
    (hk : k.isMedia = true) : mediaCount s.contexts < maxMedia := by
  by_contra hfull
  unfold State.intake at h
  split at h
  · rename_i code hstate
    subst h
    unfold State.intakeState at hstate
    repeat' split at hstate
    all_goals cases hstate
  · simp only [hk, Nat.le_of_not_lt hfull, and_self, if_true] at h
    split at h
    · cases h
    · split at h <;> cases h

theorem State.takeDecision_keeps (s : State) (kind tag : Byte) (params : List Byte) (env : Env) :
    Keeps (kindOf kind = some .setTime) (kindOf kind = some .clearAlarms) s (s.takeDecision kind tag params env).1 := by
  unfold State.takeDecision
  split
  · rename_i k hk
    dsimp only
    split
    · rename_i hacc
      rw [hk]
      exact (State.accept_keeps params env (State.mediaRoom_of_accepted hacc)).mono (congrArg some) (congrArg some)
    · exact .refl s
  · exact .refl s

theorem State.submitFrame_keeps (s : State) (kind tag : Byte) (params : List Byte) (chk : Half) (env : Env) :
    Keeps (kindOf kind = some .setTime) (kindOf kind = some .clearAlarms) s
      (s.submitFrame kind tag params chk env) := by
  unfold State.submitFrame
  split
  · exact s.submitOverLong_keeps
  · split
    · exact (s.takeDecision_keeps kind tag params env).trans (State.driveIntake_keeps _ _)
    · exact s.frameError_keeps.trans (State.driveIntake_keeps _ _)

theorem State.doSubmit_keeps (s : State) (kind tag : Byte) (params : List Byte) (chk : Half) (env : Env) :
    Keeps (kindOf kind = some .setTime) (kindOf kind = some .clearAlarms) s (s.doSubmit kind tag params chk env) :=
  State.decoded_keeps (s.openTxn_keeps 0xA1 s.guardHigh) _ fun _ => State.submitFrame_keeps _ kind tag params chk env

theorem State.doImmediate_keeps (s : State) (k : Kind) (tag : Byte) (params : List Byte) (env : Env) :
    Keeps (k = .setTime) (k = .clearAlarms) s (s.doImmediate k tag params env) := by
  refine State.decoded_keeps (s.openTxn_keeps 0xA1 s.guardHigh) _ fun _ => ?_
  split
  · exact State.submitOverLong_keeps _
  · have h := State.takeDecision_keeps (s.openTxn 0xA1) k.code tag params env
    rw [kindOf_code, Option.some_inj, Option.some_inj] at h
    exact h.trans (State.driveIntake_keeps _ _)

theorem State.doMedia_keeps (s : State) {k : Kind} (hk : k.isMedia = true) (tag : Byte) (params : List Byte) (env : Env) :
    Keeps time alarm s (s.doMedia k tag params env) := by
  have hdecision : ∀ t : State, Keeps time alarm t (t.takeDecision k.code tag params env).1 := fun t =>
    (t.takeDecision_keeps k.code tag params env).mono
      (by rw [kindOf_code]; rintro ⟨⟩; cases hk) (by rw [kindOf_code]; rintro ⟨⟩; cases hk)
  refine State.decoded_keeps ((s.observe_keeps env).trans (State.openTxn_keeps _ 0xA1 _)) _ fun _ => ?_
  split
  · exact State.submitOverLong_keeps _
  · have hdriven := fun t : State => (hdecision t).trans (State.driveIntake_keeps _ (t.takeDecision k.code tag params env).2)
    dsimp only
    split
    · exact (hdriven _).trans (State.startNext_keeps _ env)
    · exact hdriven _

/-! ### Resets and the mount -/

/-- Eight FREE contexts meet the limits (R24, R45). -/
theorem reset_contextLimits : ContextLimits State.reset := ⟨rfl, by decide, by decide⟩

theorem State.emptyRequests_keeps (s : State) : Keeps time alarm s s.emptyRequests :=
  { Keeps.refl (time := time) (alarm := alarm) s with
    contexts := fun _ => reset_contextLimits }

theorem State.clearLinkStats_keeps (s : State) : Keeps time alarm s s.clearLinkStats :=
  .of_eq rfl rfl rfl rfl rfl rfl rfl

theorem State.restartTime_keeps (s : State) : Keeps time alarm s s.restartTime :=
  { Keeps.refl (time := time) (alarm := alarm) s with timeUnset := fun _ _ => rfl }

/-- Clearing the reports is what clears alarms in a reset (R168, R170). -/
theorem State.clearReports_keeps (h : alarm) (s : State) : Keeps time alarm s s.clearReports :=
  { Keeps.refl (time := time) (alarm := alarm) s with
    events := fun _ => Nat.zero_le _
    alarms := fun hn => absurd h hn }

theorem State.cutAttempt_keeps (s : State) : Keeps time alarm s s.cutAttempt := by
  unfold State.cutAttempt State.releaseBus
  repeat' split
  all_goals exact .of_eq rfl rfl rfl rfl rfl rfl rfl

theorem State.stopOperation_keeps (s : State) (rb : ReadBack) : Keeps time alarm s (s.stopOperation rb) := by
  unfold State.stopOperation
  split
  · exact .refl s
  · exact (s.land_keeps _ rb _).trans (.of_eq rfl rfl rfl rfl rfl rfl rfl)

theorem State.beginDrain_keeps (s : State) (rb : ReadBack) : Keeps time alarm s (s.beginDrain rb) := by
  unfold State.beginDrain
  split
  · exact .refl s
  · split
    · exact (s.land_keeps _ rb _).trans (.of_eq rfl rfl rfl rfl rfl rfl rfl)
    · split <;> exact .of_eq rfl rfl rfl rfl rfl rfl rfl

theorem State.hardwareStop_keeps (h : alarm) (s : State) (rb : ReadBack) : Keeps time alarm s (s.hardwareStop rb) :=
  (((((s.cutAttempt_keeps.trans (State.stopOperation_keeps _ rb)).trans (State.emptyRequests_keeps _)).trans
    (State.clearLinkStats_keeps _)).trans (State.restartTime_keeps _)).trans (State.clearReports_keeps h _)).trans
    (.of_eq rfl rfl rfl rfl rfl rfl rfl)

theorem State.softwareReset_keeps (s : State) (rb : ReadBack) : Keeps time alarm s (s.softwareReset rb) :=
  ((((s.cutAttempt_keeps.trans (State.beginDrain_keeps _ rb)).trans (State.emptyRequests_keeps _)).trans
    (State.clearLinkStats_keeps _)).trans (State.restartTime_keeps _)).trans (.of_eq rfl rfl rfl rfl rfl rfl rfl)

theorem State.mountStart_keeps (s : State) : Keeps time alarm s s.mountStart := by
  unfold State.mountStart; dsimp only
  refine Keeps.trans ?_ (State.recordAll_keeps _ _)
  rw [BitVec.or_assoc]
  exact (s.latch_keeps _).trans (.of_eq rfl rfl rfl rfl rfl rfl rfl)

theorem State.released_keeps (h : alarm) (s : State) (rb : ReadBack) : Keeps time alarm s (s.released rb) :=
  (s.hardwareStop_keeps h rb).trans (.trans (t := { s.hardwareStop rb with resetLow := false })
    (.of_eq rfl rfl rfl rfl rfl rfl rfl) (State.mountStart_keeps _))

theorem State.absorbMount_keeps (s : State) (r : Committed × List Raised) : Keeps time alarm s (s.absorbMount r) :=
  .trans (t := { s with committed := r.1, mountSampled := true }) (.of_eq rfl rfl rfl rfl rfl rfl rfl)
    (State.recordAll_keeps r.2 _)

theorem State.mountSample_keeps (s : State) (env : Env) : Keeps time alarm s (s.mountSample env) := by
  unfold State.mountSample
  split
  · exact s.absorbMount_keeps _
  · exact .refl s

theorem State.mountConditions_keeps (s : State) : Keeps time alarm s s.mountConditions := by
  unfold State.mountConditions; dsimp only
  refine Keeps.trans ?_ (State.comparePool_keeps _)
  refine Keeps.trans (t := { s with committed := { s.committed with
    cat := { s.committed.cat with readOnly := mountReadOnly s.committed } } }) (.of_eq rfl rfl rfl rfl rfl rfl rfl) ?_
  split
  · exact (State.latch_keeps _ _).trans (State.record_keeps _ _)
  · exact .refl _

theorem State.mountEnd_keeps (s : State) : Keeps time alarm s s.mountEnd :=
  (s.record_keeps _).trans (.of_eq rfl rfl rfl rfl rfl rfl rfl)

theorem State.mountFinish_keeps (s : State) (env : Env) : Keeps time alarm s (s.mountFinish env) := by
  refine (s.mountSample_keeps env).trans ?_
  dsimp only [State.mountFinish]
  split
  · exact State.mountEnd_keeps _
  · exact (State.mountConditions_keeps _).trans (State.mountEnd_keeps _)

/-- A wake sets TIME_UNSET (R162). -/
theorem State.wakeUp_keeps (s : State) : Keeps time alarm s s.wakeUp :=
  { Keeps.refl (time := time) (alarm := alarm) s with timeUnset := fun _ _ => rfl }

/-! ### The engine's rows and the sensor bus -/

theorem State.doArrayEnd_keeps (s : State) (rb : ReadBack) (tripped : Bool) :
    Keeps time alarm s (s.doArrayEnd rb tripped) := by
  unfold State.doArrayEnd
  split
  · exact .refl s
  · split
    · exact s.operationEnds_keeps _ rb tripped
    · exact .refl s

theorem State.doFuseEnd_keeps (s : State) (rb : ReadBack) : Keeps time alarm s (s.doFuseEnd rb) := by
  unfold State.doFuseEnd
  split
  · exact .refl s
  · split
    · exact s.operationEnds_keeps _ rb false
    · exact .refl s

theorem State.doReconsider_keeps (s : State) (env : Env) : Keeps time alarm s (s.doReconsider env) := by
  unfold State.doReconsider
  split
  · split
    · exact (s.startBackground_move _ env).keeps
    · exact Keeps.trans (t := { s with freeDraws := s.freeDraws + 1 }) (.of_eq rfl rfl rfl rfl rfl rfl rfl)
        (State.startBackground_move _ _ env).keeps
  · exact .refl s

theorem State.doBackground_keeps (s : State) (env : Env) : Keeps time alarm s (s.doBackground env) := by
  unfold State.doBackground
  split
  · exact (s.startBackground_move _ env).keeps
  · exact .refl s

theorem State.attemptEnds_keeps (s : State) (e : AttemptEnd) (env : Env) : Keeps time alarm s (s.attemptEnds e env) := by
  unfold State.attemptEnds
  split
  · exact (s.sensorEnds_move _ e env).keeps
  · exact s.absorbMount_keeps _

/-- An attempt in progress ends, whatever it did on the bus. -/
theorem State.attempt_keeps (s : State) (acts : List BusAct) (e : AttemptEnd) (env : Env) :
    Keeps time alarm s (if s.attempting then { s with sensorLog := acts }.attemptEnds e env else s) := by
  split
  · exact Keeps.trans (t := { s with sensorLog := acts }) (.of_eq rfl rfl rfl rfl rfl rfl rfl)
      (State.attemptEnds_keeps _ e env)
  · exact .refl s

/-- Changing nothing that `Keeps` speaks of, under a condition. -/
theorem Keeps.ite_of {s t : State} (p : Prop) [Decidable p] (h : Keeps time alarm s t) :
    Keeps time alarm s (if p then t else s) := by
  split
  · exact h
  · exact .refl s

end

end Sys2Proof.Machine
end

section
namespace Sys2Proof.Machine

/-! ### Every command -/

/-- The commands that may clear TIME_UNSET: a SET_TIME, as its own row or in a SUBMIT (R164). -/
def Instr.SetsTime (c : Instr) : Prop :=
  (∃ tag params env, c = .setTime tag params env) ∨ ∃ tag params chk env, c = .submit 0x0B tag params chk env

/-- The commands that may clear an alarm (R178). -/
def Instr.ClearsAlarms (c : Instr) : Prop :=
  (∃ tag params, c = .clearAlarms tag params) ∨ (∃ tag params chk env, c = .submit 0x08 tag params chk env) ∨
    (∃ long rb, c = .hardwareReset long rb) ∨ (∃ supply rb, c = .resetRelease supply rb) ∨ c = .drainEnd

/-- A kind byte that names a kind is that kind's code. -/
theorem code_of_kindOf {b : Byte} {k : Kind} (h : kindOf b = some k) : b = k.code := by
  have := List.find?_some h
  exact (beq_iff_eq.mp this).symm

/-- Every command answers a next state, ALERT# at its level, that keeps what `Keeps` names. -/
theorem exec_keeps (c : Instr) (s : State) :
    ∃ u, exec c s = .next u.settle ∧ Keeps (Instr.SetsTime c) (Instr.ClearsAlarms c) s u := by
  have himmediate : ∀ {k : Kind} {tag : Byte} {params : List Byte} (env : Env), k ≠ .setTime → k ≠ .clearAlarms →
      Keeps (Instr.SetsTime c) (Instr.ClearsAlarms c) s (s.doImmediate k tag params env) := fun env htime halarm =>
    (s.doImmediate_keeps _ _ _ env).mono (absurd · htime) (absurd · halarm)
  cases c with
  | leadByte l => exact ⟨_, rfl, s.newTxn_keeps _ _⟩
  | unknownLead b =>
    refine ⟨_, rfl, ?_⟩
    unfold State.doUnknownLead
    split
    · exact .refl s
    · exact State.decoded_keeps (s.openTxn_keeps _ _) _ fun _ => .of_eq rfl rfl rfl rfl rfl rfl rfl
  | overLongFrame kind tag len =>
    refine ⟨_, rfl, ?_⟩
    unfold State.doOverLong
    split
    · exact .refl s
    · exact State.decoded_keeps (s.openTxn_keeps _ _) _ fun _ => State.submitOverLong_keeps _
  | incompleteFrame b => exact ⟨_, rfl, .ite_of _ ((s.openTxn_keeps _ _).trans (State.csRise_keeps _))⟩
  | submit kind tag params chk env =>
    refine ⟨_, rfl, (s.observe_keeps env).trans ((State.doSubmit_keeps _ kind tag params chk env).mono ?_ ?_)⟩
    · intro h; exact .inr ⟨tag, params, chk, env, by rw [code_of_kindOf h]; rfl⟩
    · intro h; exact .inr (.inl ⟨tag, params, chk, env, by rw [code_of_kindOf h]; rfl⟩)
  | fetch =>
    refine ⟨_, rfl, State.decoded_keeps (s.openTxn_keeps _ _) _ fun _ => ?_⟩
    split <;> exact .of_eq rfl rfl rfl rfl rfl rfl rfl
  | replyDelivery => exact ⟨_, rfl, s.doDelivery_keeps⟩
  | refetch =>
    exact ⟨_, rfl, State.decoded_keeps (s.openTxn_keeps _ _) _ fun _ => .of_eq rfl rfl rfl rfl rfl rfl rfl⟩
  | peek env =>
    exact ⟨_, rfl, State.decoded_keeps (s.openTxn_keeps _ _) _ fun _ => .of_eq rfl rfl rfl rfl rfl rfl rfl⟩
  | sleep complement =>
    refine ⟨_, rfl, State.control_keeps _ _ _ _ fun t _ => ?_⟩
    unfold State.sleepAct
    repeat' split
    all_goals exact .of_eq rfl rfl rfl rfl rfl rfl rfl
  | enterDeepSleep => exact ⟨_, rfl, .ite_of _ (.of_eq rfl rfl rfl rfl rfl rfl rfl)⟩
  | wake complement =>
    refine ⟨_, rfl, ?_⟩
    unfold State.doWake
    split
    · refine (s.openTxn_keeps 0xC2 s.guardHigh).trans ?_
      dsimp only [State.wakeAsleep]
      split
      · split
        · exact State.wakeUp_keeps _
        · exact .of_eq rfl rfl rfl rfl rfl rfl rfl
      all_goals exact .refl _
    · exact State.control_keeps _ _ _ _ fun t _ => .refl t
  | wakeReady => exact ⟨_, rfl, .ite_of _ (.of_eq rfl rfl rfl rfl rfl rfl rfl)⟩
  | resetArm complement =>
    exact ⟨_, rfl, State.control_keeps _ _ _ _ fun t _ => .of_eq rfl rfl rfl rfl rfl rfl rfl⟩
  | reset complement rb =>
    refine ⟨_, rfl, State.control_keeps _ _ _ _ fun t _ => ?_⟩
    split
    · exact t.softwareReset_keeps rb
    · exact .refl t
  | drainEnd =>
    exact ⟨_, rfl, .ite_of _ ((s.clearReports_keeps (.inr (.inr (.inr (.inr rfl))))).trans (State.mountStart_keeps _))⟩
  | hardwareReset long rb =>
    have hclears : Instr.ClearsAlarms (.hardwareReset long rb) := .inr (.inr (.inl ⟨long, rb, rfl⟩))
    have hdraw : ∀ {time alarm : Prop}, Keeps time alarm s { s with freeDraws := s.freeDraws + 1 } :=
      .of_eq rfl rfl rfl rfl rfl rfl rfl
    refine ⟨_, rfl, ?_⟩
    unfold State.doHardwareReset
    split
    · exact s.hardwareStop_keeps hclears rb
    · exact hdraw.trans (.ite_of _ (State.hardwareStop_keeps hclears _ rb))
  | resetRelease supply rb =>
    have hclears : Instr.ClearsAlarms (.resetRelease supply rb) := .inr (.inr (.inr (.inl ⟨supply, rb, rfl⟩)))
    refine ⟨_, rfl, ?_⟩
    unfold State.doResetRelease
    split
    · split
      · exact s.hardwareStop_keeps hclears rb
      · exact s.released_keeps hclears rb
    · exact .ite_of _ (s.released_keeps hclears rb)
  | mountComplete env => exact ⟨_, rfl, .ite_of _ ((s.observe_keeps env).trans (State.mountFinish_keeps _ env))⟩
  | tick => exact ⟨_, rfl, .ite_of _ (.of_eq rfl rfl rfl rfl rfl rfl rfl)⟩
  | sampleAgeTick => exact ⟨_, rfl, .ite_of _ (.of_eq rfl rfl rfl rfl rfl rfl rfl)⟩
  | requestStart env => exact ⟨_, rfl, (s.observe_keeps env).trans (State.startNext_keeps _ env)⟩
  | arrayOperationComplete rb => exact ⟨_, rfl, s.doArrayEnd_keeps rb false⟩
  | arrayWatchdogTrip rb => exact ⟨_, rfl, s.doArrayEnd_keeps rb true⟩
  | fuseOperationComplete rb => exact ⟨_, rfl, s.doFuseEnd_keeps rb⟩
  | backgroundReclaim env => exact ⟨_, rfl, (s.observe_keeps env).trans (State.doBackground_keeps _ env)⟩
  | reclaimReconsider env => exact ⟨_, rfl, (s.observe_keeps env).trans (State.doReconsider_keeps _ env)⟩
  | stretchTimeout env => exact ⟨_, rfl, (s.observe_keeps env).trans (State.attempt_keeps _ _ _ env)⟩
  | sensorAttempt run env => exact ⟨_, rfl, (s.observe_keeps env).trans (State.attempt_keeps _ _ _ env)⟩
  | transactionEnd => exact ⟨_, rfl, s.csRise_keeps⟩
  | setTime tag params env =>
    refine ⟨_, rfl, (s.observe_keeps env).trans ((State.doImmediate_keeps _ _ _ _ env).mono ?_ (fun h => by cases h))⟩
    exact fun _ => .inl ⟨tag, params, env, rfl⟩
  | clearAlarms tag params =>
    refine ⟨_, rfl, (s.doImmediate_keeps _ _ _ s.noInputs).mono (fun h => by cases h) ?_⟩
    exact fun _ => .inl ⟨tag, params, rfl⟩
  | getIdentity | getSettings | streamInfo | poolInfo | readProfiles | readEvents | releaseEvents | linkStats | getTime
  | arm | abort => exact ⟨_, rfl, himmediate s.noInputs (by decide) (by decide)⟩
  | read tag params env | readNext tag params env | seek tag params env | sampleTemperature tag params env
  | setTemperature tag params env | writeProfile tag params env | append tag params env | trim tag params env
  | createStream tag params env | deleteStream tag params env | sealStream tag params env | setHold tag params env
  | clearHold tag params env | format tag params env | setOption tag params env | commitProfiles tag params env
  | setOwnerLabel tag params env | fixGuard tag params env => exact ⟨_, rfl, s.doMedia_keeps rfl tag params env⟩

/-- The next state of a command is ALERT#'s level driven on a state that keeps what `Keeps` names. -/
theorem keeps_of_exec {c : Instr} {s t : State} (h : exec c s = .next t) :
    Keeps (Instr.SetsTime c) (Instr.ClearsAlarms c) s t := by
  obtain ⟨u, hu, hkeeps⟩ := exec_keeps c s
  rw [hu] at h
  cases h
  exact hkeeps.trans (.of_eq rfl rfl rfl rfl rfl rfl rfl)

/-- The step idles, or carries out a command on the state with the queue's rest. -/
theorem step_cases {s t : State} (h : step s = .next t) :
    t = s ∨ ∃ c rest, s.pending = c :: rest ∧ exec c { s with pending := rest } = .next t := by
  unfold step at h
  split at h
  · cases h; exact .inl rfl
  · exact .inr ⟨_, _, ‹_›, h⟩

/-- What every command keeps of the rest of the state, every step keeps. -/
theorem step_preserves {p : State → Prop} (hqueue : ∀ s rest, p s → p { s with pending := rest })
    (hexec : ∀ c s t, p s → exec c s = .next t → p t) {s t : State} (hs : p s) (h : step s = .next t) : p t := by
  obtain rfl | ⟨c, rest, -, hc⟩ := step_cases h
  · exact hs
  · exact hexec c _ t (hqueue s rest hs) hc

/-! ### The invariants of the whole machine -/

/-- Settles O1, from the step's own equation. -/
theorem stepRunsFrontCommand : Obligations.StepRunsFrontCommand := by
  refine ⟨fun c s => rfl, fun s hs => ?_⟩
  unfold step
  rw [hs]

/-- Settles O3: every command keeps the form, since every operation of the array does. -/
theorem arrayFormKept : Obligations.ArrayFormKept := fun _ _ hs h =>
  step_preserves (fun _ _ hp => hp) (fun _ _ _ hp hc => (keeps_of_exec hc).arrayForm hp) hs h

/-- Settles O4: each limit is one every command keeps. -/
theorem contextLimitsKept : Obligations.ContextLimitsKept :=
  ⟨fun _ _ hs h => step_preserves (fun _ _ hp => hp) (fun _ _ _ hp hc => (keeps_of_exec hc).contexts hp) hs h,
    fun _ _ hs h => step_preserves (fun _ _ hp => hp) (fun _ _ _ hp hc => (keeps_of_exec hc).events hp) hs h⟩

/-- Settles O5, by evaluation at the state after reset. -/
theorem resetMeetsInvariants : Obligations.ResetMeetsInvariants :=
  ⟨reset_arrayForm, reset_contextLimits, rfl, Nat.zero_le _⟩

/-- Settles O6: a command that clears TIME_UNSET is one of those that may. -/
theorem timeUnsetClearedOnlyBySetTime : Obligations.TimeUnsetClearedOnlyBySetTime := by
  intro c s t h hset hclear
  by_contra hcause
  have := (keeps_of_exec h).timeUnset hcause hset
  rw [hclear] at this
  cases this

/-- Settles O7: a command that clears an alarm is one of those that may. -/
theorem alarmsClearedOnlyAsListed : Obligations.AlarmsClearedOnlyAsListed := by
  intro c s t h hclear
  by_contra hcause
  exact hclear ((keeps_of_exec h).alarms hcause)

/-- Settles O8, from the only operation that programs a fuse cell. -/
theorem fuseCellsOnlyBlow : Obligations.FuseCellsOnlyBlow := fun _ _ _ h =>
  ⟨(keeps_of_exec h).cells, (keeps_of_exec h).identity⟩

/-- The level of ALERT#, in the words of R184. -/
theorem State.alertLevel_iff (s : State) :
    s.alertLevel = true ↔ s.resetLow = false ∧ (s.dev = .running ∨ s.dev = .faulted) ∧
      ((∃ x ∈ s.contexts, x.isDone = true) ∨
        ∃ e ∈ s.events, s.committed.tables.settings.alertMask.getLsbD (e.what.kind.code - 1) = true) := by
  simp [State.alertLevel, alertEnabled, and_assoc]

/-- Settles O2: every command ends in `settle`, which drives ALERT# to its level. -/
theorem commandsKeepQueueAndDriveAlert : Obligations.CommandsKeepQueueAndDriveAlert := by
  refine ⟨fun c s => ?_, fun c s => ?_⟩
  · obtain ⟨u, hu, hkeeps⟩ := exec_keeps c s
    exact ⟨_, hu, hkeeps.pending⟩
  · obtain ⟨u, hu, -⟩ := exec_keeps c s
    exact ⟨_, hu, u.alertLevel_iff⟩

end Sys2Proof.Machine
end

section
/-! Segments that leave their lists (R51, R54, R57) and the comparison of the pool level (R66). -/

namespace Sys2Proof.Machine

/-! ### The segment table -/

theorem Tables.seg_setSeg_same {t : Tables} {i : Nat} (hi : i < t.segs.length) (e : SegEntry) :
    (t.setSeg i e).seg i = e := by
  simp [Tables.seg, Tables.setSeg, hi]

theorem Tables.seg_setSeg_other (t : Tables) {i j : Nat} (hj : j ≠ i) (e : SegEntry) :
    (t.setSeg i e).seg j = t.seg j := by
  simp [Tables.seg, Tables.setSeg, List.getElem?_set_ne hj.symm]

/-- What a released segment becomes: RETIRED if suspect, and otherwise DIRTY (R51). -/
def SegEntry.released (e : SegEntry) : SegEntry :=
  { e with state := if e.suspect then .retired else .dirty, suspect := false }

/-- One segment leaves its list: its entry, its place in the dirty list, and nothing else (R51, R54). -/
theorem Tables.releaseSeg_eq (t : Tables) (i : Nat) :
    t.releaseSeg i = { t.setSeg i (t.seg i).released with
      dirty := t.dirty ++ if (t.seg i).suspect then [] else [i] } := by
  unfold Tables.releaseSeg SegEntry.released
  cases h : (t.seg i).suspect <;> simp [Tables.setSeg, h]

/-- Settles O15, by induction on the segments released: one of them is not among the rest, whose entries stand as they
were until their turn. -/
theorem releasedSegmentsBecomeDirtyOrRetired : Obligations.ReleasedSegmentsBecomeDirtyOrRetired := by
  intro t is
  induction is generalizing t with
  | nil => intro _ _; simp [Tables.release]
  | cons i rest ih =>
    intro hnodup hlen
    obtain ⟨hi, hrest⟩ := List.nodup_cons.mp hnodup
    have hother : ∀ j, j ≠ i → (t.releaseSeg i).seg j = t.seg j := fun j hj => by
      rw [t.releaseSeg_eq]; exact t.seg_setSeg_other hj _
    have hsame : (t.releaseSeg i).seg i = (t.seg i).released := by
      rw [t.releaseSeg_eq]; exact Tables.seg_setSeg_same (hlen i List.mem_cons_self) _
    have hlength : (t.releaseSeg i).segs.length = t.segs.length := by
      rw [t.releaseSeg_eq]; exact List.length_set
    have hmem : ∀ j ∈ rest, j ≠ i := fun j hj h => hi (h ▸ hj)
    obtain ⟨hdirty, hin, hout, hstreams⟩ := ih (t.releaseSeg i) hrest
      fun j hj => hlength ▸ hlen j (List.mem_cons_of_mem i hj)
    change ((t.releaseSeg i).release rest).dirty = _ ∧ (∀ j ∈ i :: rest, ((t.releaseSeg i).release rest).seg j = _) ∧
      (∀ j, j ∉ i :: rest → ((t.releaseSeg i).release rest).seg j = _) ∧ ((t.releaseSeg i).release rest).streams = _
    refine ⟨?_, ?_, ?_, ?_⟩
    · have hfilter : rest.filter (fun j => !((t.releaseSeg i).seg j).suspect) =
          rest.filter (fun j => !(t.seg j).suspect) :=
        List.filter_congr fun j hj => by rw [hother j (hmem j hj)]
      rw [hdirty, hfilter, t.releaseSeg_eq, List.filter_cons, List.append_assoc]
      cases (t.seg i).suspect <;> rfl
    · intro j hj
      obtain rfl | hj := List.mem_cons.mp hj
      · rw [hout j hi, hsame]; rfl
      · rw [hin j hj, hother j (hmem j hj)]
    · intro j hj
      rw [List.mem_cons, not_or] at hj
      rw [hout j hj.2, hother j hj.1]
    · rw [hstreams, t.releaseSeg_eq]; rfl

/-! ### The pool level -/

/-- Settles O16: below the threshold POOL_LOW is set and the first comparison there raises the event; at or above it both are
as at the start of a descent. -/
theorem poolLevelRaisesOncePerDescent : Obligations.PoolLevelRaisesOncePerDescent := by
  intro s
  dsimp only
  unfold State.comparePool
  by_cases hlow : s.committed.tables.available < s.committed.tables.settings.poolLowThreshold.toNat
  · cases harmed : s.poolLowArmed with
    | false => simp [hlow]
    | true =>
      simp only [hlow, if_true, State.record]
      split
      · simp [hlow, raised, State.stamp]
      · rename_i hfull
        have : ¬ s.events.length < 16 := hfull
        simp [hlow, this]
  · simp only [hlow, if_false]
    simp [Nat.le_of_not_lt hlow]

end Sys2Proof.Machine
end

section
/-! The link of Chapter 1: the lead point and what follows it, replies offered and delivered, the status word, the control
transactions that go wrong, frame errors, and the end of a transaction. -/

namespace Sys2Proof.Machine

/-! ### The lead point where the link is free -/

/-- The link after the lead point of a known lead, less what a FETCH, a REFETCH and a PEEK fix there (R4, R5, R17). -/
def State.heard (s : State) (b : Byte) : State :=
  { s with
    csLow := true
    txn := .lead b s.resetArm
    leadSdo := some 0xFF
    offered := none
    sdo := .drive [] 0xFF
    resetArm := false }

theorem LinkIdle.openTxn_control {s : State} (h : LinkIdle s) {b : Byte}
    (hb : b ∈ ([0xA1, 0xC1, 0xC2, 0xC3, 0xC4] : List Byte)) (g : Bool) : s.openTxn b g = s.heard b := by
  rw [h.openTxn_eq]
  obtain rfl | rfl | rfl | rfl | rfl : b = 0xA1 ∨ b = 0xC1 ∨ b = 0xC2 ∨ b = 0xC3 ∨ b = 0xC4 := by simpa using hb
  all_goals rfl

theorem LinkIdle.openTxn_fetch {s : State} (h : LinkIdle s) (g : Bool) :
    s.openTxn 0xA2 g = { s.heard 0xA2 with offered := nextReply s.contexts, sdo := .drive s.fetchBytes 0xFF } := by
  rw [h.openTxn_eq]; rfl

theorem LinkIdle.openTxn_refetch {s : State} (h : LinkIdle s) (g : Bool) :
    s.openTxn 0xA3 g = { s.heard 0xA3 with sdo := .drive s.refetchBytes 0xFF } := by
  rw [h.openTxn_eq]; rfl

theorem LinkIdle.openTxn_peek {s : State} (h : LinkIdle s) (g : Bool) :
    s.openTxn 0xA4 g = { s.heard 0xA4 with guardHigh := g, sdo := .drive (s.peekBytes g) 0xFF } := by
  rw [h.openTxn_eq]; rfl

/-- With the link idle a new assertion and an opened transaction are one. -/
theorem LinkIdle.newTxn_openTxn {s : State} (h : LinkIdle s) (b : Byte) (g : Bool) : s.newTxn b g = s.openTxn b g := by
  rw [h.newTxn_eq, h.openTxn_eq]

/-! ### The reply a FETCH chooses -/

/-- The DONE context with the lowest completion number is the one chosen (R12, R42). -/
theorem nextReply_of_oldest {cs : List Context} {i n : Nat} {r : Request} {st : Status} {payload : List Byte}
    (hi : cs[i]? = some (.held r (.done n st payload)))
    (hmin : ∀ (j m : Nat) (r' : Request) (st' : Status) (p' : List Byte),
      cs[j]? = some (.held r' (.done m st' p')) → j ≠ i → n < m) : nextReply cs = some i := by
  have hmem : Context.held r (.done n st payload) ∈ cs := List.mem_of_getElem? hi
  cases hlow : lowestBy Context.completion? cs 0 none with
  | none =>
    have := ((lowestBy_none _ cs 0 none).mp hlow).2 _ hmem
    cases this
  | some best =>
    obtain ⟨j, m⟩ := best
    have hle : m ≤ n := (lowestBy_le _ cs 0 none j m hlow).2 _ hmem n rfl
    obtain hbest | ⟨k, c, hk, hc, hm⟩ := lowestBy_mem _ cs 0 none j m hlow
    · cases hbest
    · rw [Nat.zero_add] at hk
      subst hk
      have hji : j = i := by
        by_contra hne
        cases c with
        | free => cases hm
        | held r' p => cases p with
          | queued => cases hm
          | executing => cases hm
          | done m' st' p' =>
            cases hm
            exact absurd (hmin j m r' st' p' hc hne) (Nat.not_lt.mpr hle)
      rw [nextReply, hlow, hji]; rfl

theorem nextReply_eq_none {cs : List Context} (h : ∀ c ∈ cs, c.isDone = false) : nextReply cs = none := by
  have hlow : lowestBy Context.completion? cs 0 none = none := by
    refine (lowestBy_none _ cs 0 none).mpr ⟨rfl, fun c hc => ?_⟩
    have := h c hc
    cases c with
    | free => rfl
    | held r p => cases p with
      | queued => rfl
      | executing => rfl
      | done => cases this
  rw [nextReply, hlow]; rfl

/-- The frame of a reply with its check, behind its presence byte (R12). -/
def presented (r : Request) (st : Status) (payload : List Byte) : List Byte :=
  0x01 :: Reply.frame ⟨r.tag, r.kind, st, payload⟩

theorem State.fetchBytes_of_oldest {s : State} {i n : Nat} {r : Request} {st : Status} {payload : List Byte}
    (hnext : nextReply s.contexts = some i) (hi : s.contexts[i]? = some (.held r (.done n st payload))) :
    s.fetchBytes = presented r st payload := by
  simp [State.fetchBytes, hnext, hi, Context.reply?, presented]

theorem State.fetchBytes_of_none {s : State} (hnext : nextReply s.contexts = none) : s.fetchBytes = [0x00] := by
  simp [State.fetchBytes, hnext]

/-- The bytes of R12, spelled out. -/
theorem presented_eq (r : Request) (st : Status) (payload : List Byte) :
    presented r st payload = [0x01, r.tag, r.kind.code, st.code] ++ be16 payload.length ++ payload ++
      checkBytes ([r.tag, r.kind.code, st.code] ++ be16 payload.length ++ payload) := by
  simp [presented, Reply.frame]

theorem State.refetchBytes_eq (s : State) : s.refetchBytes = match s.echo with
    | none => [0x00]
    | some r => [0x01, r.tag, r.kind.code, r.status.code] ++ be16 r.payload.length ++ r.payload ++
        checkBytes ([r.tag, r.kind.code, r.status.code] ++ be16 r.payload.length ++ r.payload) := by
  cases h : s.echo <;> simp [State.refetchBytes, h, Reply.frame]

/-! ### FETCH, REFETCH, PEEK and the delivery in an assertion of their own -/

theorem LinkIdle.doFetch_eq {s : State} (h : LinkIdle s) : s.doFetch = { s.heard 0xA2 with
    offered := nextReply s.contexts
    sdo := .drive s.fetchBytes 0xFF
    txn := match nextReply s.contexts with
      | none => .ended
      | some i => .presence i } := by
  have hdec := h.decoding_openTxn 0xA2 s.guardHigh
  simp only [State.doFetch, hdec]
  rw [h.openTxn_fetch]
  cases nextReply s.contexts <;> rfl

theorem LinkIdle.doRefetch_eq {s : State} (h : LinkIdle s) :
    s.doRefetch = { s.heard 0xA3 with sdo := .drive s.refetchBytes 0xFF, txn := .ended } := by
  have hdec := h.decoding_openTxn 0xA3 s.guardHigh
  simp only [State.doRefetch, hdec]
  rw [h.openTxn_refetch]

theorem LinkIdle.doPeek_eq {s : State} (h : LinkIdle s) (env : Env) : s.doPeek env =
    { s.heard 0xA4 with guardHigh := env.guardHigh, sdo := .drive (s.peekBytes env.guardHigh) 0xFF, txn := .ended } := by
  have hdec := h.decoding_openTxn 0xA4 env.guardHigh
  simp only [State.doPeek, hdec]
  rw [h.openTxn_peek]

/-- What the delivery leaves: the echo buffer replaced, the context FREE, and the position of the presence byte passed (R13,
R42). -/
theorem State.doDelivery_eq {s : State} {i n : Nat} {r : Request} {st : Status} {payload : List Byte}
    (hdec : s.linkDecodes = true) (ha : s.announced = some i)
    (hi : s.contexts[i]? = some (.held r (.done n st payload))) :
    s.doDelivery = { s with
      echo := some ⟨r.tag, r.kind, st, payload⟩, contexts := s.contexts.set i .free, txn := .ended, sdo := s.sdo.next } := by
  simp [State.doDelivery, hdec, ha, hi, Context.reply?]

theorem linkDecodes_of {s : State} (hreset : s.resetLow = false) (hdev : s.dev ≠ .deepSleep) : s.linkDecodes = true := by
  simp [State.linkDecodes, hreset, hdev]

/-- Settles O24: the choice is made at the lead point, by completion number. -/
theorem fetchOffersOldestReply : Obligations.FetchOffersOldestReply := by
  refine ⟨?offers, ?nothing⟩
  case offers =>
    intro s i n r st payload h hi hmin
    have hnext := nextReply_of_oldest hi hmin
    refine ⟨_, rfl, ?_⟩
    rw [h.doFetch_eq, State.fetchBytes_of_oldest hnext hi, hnext, presented_eq]
    exact ⟨rfl, rfl, rfl, rfl, rfl, fun _ => rfl⟩
  case nothing =>
    intro s h hdone
    have hnext := nextReply_eq_none hdone
    refine ⟨_, rfl, ?_⟩
    rw [h.doFetch_eq, State.fetchBytes_of_none hnext, hnext]
    exact ⟨rfl, rfl, rfl, rfl, rfl, fun _ => rfl⟩

/-- Settles O25: the delivery where a FETCH has its presence byte on the line, and from the lead point that chose it on. -/
theorem deliveryFreesContext : Obligations.DeliveryFreesContext := by
  refine ⟨?delivers, ?whole⟩
  case delivers =>
    intro s i n r st payload hreset hdev ha hi
    have hann : s.announced = some i := by
      obtain ht | ⟨ho, sampled, ht⟩ := ha
      · simp [State.announced, ht]
      · simp [State.announced, ht, ho]
    refine ⟨_, rfl, ?_⟩
    rw [State.doDelivery_eq (linkDecodes_of hreset hdev) hann hi]
    exact ⟨rfl, rfl, rfl, fun frame hsdo => by simp [hsdo, Sdo.next], rfl, fun _ => rfl⟩
  case whole =>
    intro s i n r st payload c h hi hmin hc
    have hnext := nextReply_of_oldest hi hmin
    have ⟨hreset, hdev, _, _⟩ := h
    obtain rfl | ⟨pin, rfl⟩ := hc
    · refine ⟨_, _, rfl, rfl, ?_⟩
      rw [LinkIdle.doFetch_eq h, State.fetchBytes_of_oldest hnext hi, hnext, presented_eq]
      rw [State.doDelivery_eq (i := i) (n := n) (r := r) (st := st) (payload := payload) ?_ ?_ ?_]
      · exact ⟨rfl, rfl, rfl, rfl, rfl, rfl, rfl, fun _ => rfl⟩
      · exact linkDecodes_of hreset hdev
      · rfl
      · exact hi
    · refine ⟨_, _, rfl, rfl, ?_⟩
      rw [State.doLeadByte, LinkIdle.newTxn_openTxn h, LinkIdle.openTxn_fetch h, State.fetchBytes_of_oldest hnext hi, hnext,
        presented_eq]
      rw [State.doDelivery_eq (i := i) (n := n) (r := r) (st := st) (payload := payload) ?_ ?_ ?_]
      · exact ⟨rfl, rfl, rfl, rfl, rfl, rfl, rfl, fun _ => rfl⟩
      · exact linkDecodes_of hreset hdev
      · rfl
      · exact hi

/-- Settles O26. -/
theorem refetchRepeatsEcho : Obligations.RefetchRepeatsEcho := by
  intro s h
  refine ⟨_, rfl, ?_⟩
  rw [h.doRefetch_eq, s.refetchBytes_eq]
  exact ⟨rfl, rfl, rfl, rfl, rfl, fun _ => rfl⟩

/-! ### The lead point -/

/-- Settles O17: the lead point of each known lead, the one of any other, and what follows the lead point of a FETCH, a
REFETCH or a PEEK. -/
theorem leadPointSamplesResetArm : Obligations.LeadPointSamplesResetArm := by
  refine ⟨?known, ?unknown, ?goesOn⟩
  case known =>
    intro s b pin h hb
    have hmem : b ∈ ([0xA1, 0xC1, 0xC2, 0xC3, 0xC4] : List Byte) ∨ b = 0xA2 ∨ b = 0xA3 ∨ b = 0xA4 := by
      simp at hb ⊢; tauto
    refine ⟨_, exec_leadByte ⟨b, pin⟩ s, ?_⟩
    rw [h.newTxn_openTxn]
    obtain hctl | rfl | rfl | rfl := hmem
    · have h2 : b ≠ 0xA2 := by rintro rfl; revert hctl; decide
      have h3 : b ≠ 0xA3 := by rintro rfl; revert hctl; decide
      have h4 : b ≠ 0xA4 := by rintro rfl; revert hctl; decide
      rw [h.openTxn_control hctl]
      exact ⟨rfl, rfl, rfl, rfl, fun _ => rfl, fun e => absurd e h2, fun e => absurd e h3, fun e => absurd e h4,
        fun _ => rfl, fun _ => rfl, rfl, fun _ => rfl⟩
    · rw [h.openTxn_fetch]
      refine ⟨rfl, rfl, rfl, rfl, fun e => absurd e (by decide), fun _ => ⟨?_, ?_⟩, fun e => absurd e (by decide),
        fun e => absurd e (by decide), fun _ => rfl, fun e => absurd rfl e, rfl, fun _ => rfl⟩
      · intro i n r st p hi hmin
        have hnext := nextReply_of_oldest hi hmin
        rw [State.fetchBytes_of_oldest hnext hi, hnext, presented_eq]
        exact ⟨rfl, rfl⟩
      · intro hdone
        have hnext := nextReply_eq_none hdone
        rw [State.fetchBytes_of_none hnext, hnext]
        exact ⟨rfl, rfl⟩
    · rw [h.openTxn_refetch, s.refetchBytes_eq]
      exact ⟨rfl, rfl, rfl, rfl, fun e => absurd e (by decide), fun e => absurd e (by decide), fun _ => rfl,
        fun e => absurd e (by decide), fun _ => rfl, fun _ => rfl, rfl, fun _ => rfl⟩
    · rw [h.openTxn_peek]
      exact ⟨rfl, rfl, rfl, rfl, fun e => absurd e (by decide), fun e => absurd e (by decide),
        fun e => absurd e (by decide), fun _ => ⟨rfl, rfl⟩, fun e => absurd rfl e, fun _ => rfl, rfl, fun _ => rfl⟩
  case unknown =>
    intro s b pin h hb
    refine ⟨_, exec_leadByte ⟨b, pin⟩ s, ?_⟩
    rw [h.newTxn_of_unknown (knownLead_eq_false_of_notMem hb)]
    exact ⟨rfl, rfl, rfl, rfl, rfl, rfl, satInc_toNat s.unknownLeads, rfl, fun _ => rfl⟩
  case goesOn =>
    intro s sampled hreset hdev hcs
    have hdec : ∀ b, s.txn = .lead b sampled → s.decoding = some sampled := fun b ht => by
      simp [State.decoding, linkDecodes_of hreset hdev, ht]
    refine ⟨fun ht => ⟨_, rfl, ?_⟩, fun ht => ⟨_, rfl, ?_⟩, fun ht env => ⟨_, rfl, ?_⟩⟩
    · simp only [State.doFetch, State.openTxn_continues ht hcs, hdec _ ht]
      cases s.offered <;> exact ⟨rfl, rfl, fun _ => rfl⟩
    · simp only [State.doRefetch, State.openTxn_continues ht hcs, hdec _ ht]
      exact ⟨rfl, rfl, fun _ => rfl⟩
    · simp only [State.doPeek, State.openTxn_continues ht hcs, hdec _ ht]
      exact ⟨rfl, rfl, fun _ => rfl⟩

/-! ### Frame errors and the end of a transaction -/

/-- Settles O19: an over-long frame and a wrong check come to a frame error on the open transaction. -/
theorem frameErrorsCountAndLatch : Obligations.FrameErrorsCountAndLatch := by
  refine ⟨?overLong, ?wrongCheck⟩
  case overLong =>
    intro s kind tag len h hlen
    refine ⟨_, h.exec_overLongFrame kind tag hlen, ?_⟩
    exact ⟨rfl, rfl, rfl, rfl, satInc_toNat s.frameErrors, rfl, rfl, fun _ => rfl⟩
  case wrongCheck =>
    intro s kind tag params chk env h hlen hchk
    refine ⟨_, h.exec_submit kind tag params chk env, ?_⟩
    have hframe : (s.openedWith env).submitFrame kind tag params chk env =
        (s.openedWith env).frameError.driveIntake .frameError := by
      rw [State.submitFrame, if_neg (show ¬ maxParams < params.length from Nat.not_lt.mpr hlen), if_neg]
      exact hchk
    rw [hframe]
    exact ⟨rfl, rfl, rfl, rfl, satInc_toNat s.frameErrors, rfl, rfl, fun _ => rfl⟩

theorem framedLead_iff_mem (b : Byte) : framedLead b = true ↔ b ∈ ([0xA1, 0xC1, 0xC2, 0xC3, 0xC4] : List Byte) := by
  simp [framedLead, or_assoc]

/-- What the end of a transaction counts (R9, R16). -/
theorem State.csRise_incompleteFrames (s : State) : s.csRise.incompleteFrames.toNat =
    if s.resetLow = false ∧ s.dev ≠ .deepSleep ∧
        ∃ b ∈ ([0xA1, 0xC1, 0xC2, 0xC3, 0xC4] : List Byte), ∃ a, s.txn = .lead b a
      then min 255 (s.incompleteFrames.toNat + 1) else s.incompleteFrames.toNat := by
  unfold State.csRise
  cases ht : s.txn with
  | lead b a =>
    have hiff : (s.linkDecodes && framedLead b) = true ↔ s.resetLow = false ∧ s.dev ≠ .deepSleep ∧
        ∃ b' ∈ ([0xA1, 0xC1, 0xC2, 0xC3, 0xC4] : List Byte), ∃ a', Txn.lead b a = .lead b' a' := by
      rw [Bool.and_eq_true, framedLead_iff_mem, State.linkDecodes]
      simp [and_assoc]
    simp only [hiff]
    split
    · exact satInc_toNat _
    · rfl
  | _ => simp

/-- Settles O20: an incomplete frame opens its transaction and CS# rises; the rise counts where a frame or a complement is
awaited. -/
theorem transactionEndReleasesLink : Obligations.TransactionEndReleasesLink := by
  refine ⟨?incomplete, ?rise⟩
  case incomplete =>
    intro s b h hb
    have hframed := (framedLead_iff_mem b).mpr hb
    refine ⟨_, rfl, ?_⟩
    rw [State.doIncomplete, if_pos hframed, h.openTxn_control hb]
    obtain ⟨hreset, hdev, -, -⟩ := h
    refine ⟨rfl, rfl, rfl, rfl, ?_, rfl, fun _ => rfl⟩
    exact (s.heard b).csRise_incompleteFrames.trans (if_pos ⟨hreset, hdev, b, hb, s.resetArm, rfl⟩)
  case rise =>
    intro s
    exact ⟨_, rfl, rfl, rfl, rfl, rfl, s.csRise_incompleteFrames, rfl, fun _ => rfl⟩

/-! ### Control transactions -/

/-- A control transaction in an assertion of its own: its act and result with the right complement, and an unknown lead with
a wrong one (R16). -/
theorem LinkIdle.control_eq {s : State} (h : LinkIdle s) {lead : Byte}
    (hlead : lead ∈ ([0xA1, 0xC1, 0xC2, 0xC3, 0xC4] : List Byte)) (complement : Byte)
    (act : State → Bool → State × Byte) : s.control lead complement act =
      if complement = ~~~lead then (act (s.heard lead) s.resetArm).1.endDriving [(act (s.heard lead) s.resetArm).2]
      else { s.heard lead with unknownLeads := satInc s.unknownLeads }.endDriving [] := by
  have hdec := h.decoding_openTxn lead s.guardHigh
  rw [h.openTxn_control hlead] at hdec
  simp only [State.control, h.openTxn_control hlead, hdec]
  rfl

/-- Settles O28: each of the four control transactions by the wrong complement's branch. -/
theorem wrongComplementOnlyCounts : Obligations.WrongComplementOnlyCounts := by
  intro s x rb c h hc
  have hcontrol : ∀ (lead : Byte) (act : State → Bool → State × Byte),
      lead ∈ ([0xA1, 0xC1, 0xC2, 0xC3, 0xC4] : List Byte) → x ≠ ~~~lead →
      s.control lead x act = { s.heard lead with unknownLeads := satInc s.unknownLeads }.endDriving [] :=
    fun lead act hlead hx => (h.control_eq hlead x act).trans (if_neg hx)
  have hwake : ¬ (s.dev = .deepSleep ∧ s.resetLow = false) := fun hs => h.2.1 hs.1
  obtain ⟨rfl, hx⟩ | ⟨rfl, hx⟩ | ⟨rfl, hx⟩ | ⟨rfl, hx⟩ := hc
  all_goals refine ⟨_, rfl, ?_⟩
  · rw [State.doSleep, hcontrol 0xC1 _ (by decide) hx]
    exact ⟨rfl, rfl, rfl, rfl, satInc_toNat s.unknownLeads, rfl, fun _ => rfl⟩
  · rw [State.doWake, if_neg hwake, hcontrol 0xC2 _ (by decide) hx]
    exact ⟨rfl, rfl, rfl, rfl, satInc_toNat s.unknownLeads, rfl, fun _ => rfl⟩
  · rw [State.doResetArm, hcontrol 0xC3 _ (by decide) hx]
    exact ⟨rfl, rfl, rfl, rfl, satInc_toNat s.unknownLeads, rfl, fun _ => rfl⟩
  · rw [State.doReset, hcontrol 0xC4 _ (by decide) hx]
    exact ⟨rfl, rfl, rfl, rfl, satInc_toNat s.unknownLeads, rfl, fun _ => rfl⟩

end Sys2Proof.Machine
end

section
/-! What is not heard in DEEP_SLEEP and while RESET# is low (R21, R22), sleep and wake, the reset-arm flag and the software
reset, and time. -/

namespace Sys2Proof.Machine

/-! ### A link that does not decode -/

/-- Nothing but the transaction decoder has changed, and SDO stays high-impedance, in the lead byte position too (R21,
R22). -/
structure Unheard (s t : State) : Prop where
  sdo : t.sdo = .highZ
  leadSdo : t.leadSdo = s.leadSdo ∨ t.leadSdo = none
  only : t = { s with csLow := t.csLow, txn := t.txn, leadSdo := t.leadSdo }

/-- A device that decodes no link, with nothing in progress. -/
structure Deaf (s : State) : Prop where
  decodes : s.linkDecodes = false
  job : s.job = none
  sdo : s.sdo = .highZ
  alert : s.alertLow = false

theorem Unheard.refl {s : State} (h : Deaf s) : Unheard s s := ⟨h.sdo, .inl rfl, rfl⟩

theorem Unheard.trans {s t u : State} (h : Unheard s t) (h' : Unheard t u) : Unheard s u where
  sdo := h'.sdo
  leadSdo := by
    obtain hu | hu := h'.leadSdo
    · rw [hu]; exact h.leadSdo
    · exact .inr hu
  only := by
    have hu := h'.only
    rw [h.only] at hu
    exact hu

theorem State.decodes_iff (s : State) : s.linkDecodes = true ↔ s.resetLow = false ∧ s.dev ≠ .deepSleep := by
  simp [State.linkDecodes]

theorem Deaf.not_decoding {s : State} (h : Deaf s) (hreset : s.resetLow = false) : s.dev = .deepSleep := by
  by_contra hdev
  have := linkDecodes_of hreset hdev
  rw [h.decodes] at this
  cases this

theorem Unheard.deaf {s t : State} (h : Deaf s) (h' : Unheard s t) : Deaf t := by
  obtain ⟨hdec, hjob, -, halert⟩ := h
  have honly := h'.only
  refine ⟨?_, ?_, h'.sdo, ?_⟩
  · rw [honly]; exact hdec
  · rw [honly]; exact hjob
  · rw [honly]; exact halert

/-- ALERT# stays released (R184). -/
theorem Unheard.settle {s t : State} (h : Deaf s) (h' : Unheard s t) : Unheard s t.settle := by
  have ht : Deaf t := h'.deaf h
  have hlevel : t.alertLevel = t.alertLow := by
    rw [ht.alert]
    by_cases hreset : t.resetLow = false
    · simp [State.alertLevel, ht.not_decoding hreset]
    · simp [State.alertLevel, hreset]
  have hsettle : t.settle = t := by rw [State.settle, hlevel]
  rw [hsettle]; exact h'

theorem Deaf.csRise {s : State} (h : Deaf s) : Unheard s s.csRise := by
  have hcount : s.csRise.incompleteFrames = s.incompleteFrames := by
    unfold State.csRise; cases s.txn <;> simp [h.decodes]
  refine ⟨rfl, .inl rfl, ?_⟩
  rw [s.csRise_frame, hcount, ← h.sdo]

theorem Deaf.leadPoint {s : State} (h : Deaf s) (b : Byte) (g : Bool) : Unheard s (s.leadPoint b g) := by
  have hfall : Unheard s s.csFall := by
    refine ⟨by simp [State.csFall, h.decodes], .inr (by simp [State.csFall, h.decodes]), ?_⟩
    simp [State.csFall, h.decodes, ← h.sdo]
  refine hfall.trans ?_
  unfold State.leadPoint
  split
  · exact ⟨hfall.sdo, .inl rfl, rfl⟩
  · rename_i hreset
    dsimp only
    rw [if_pos (h.not_decoding (Bool.eq_false_iff.mpr hreset))]
    exact ⟨hfall.sdo, .inl rfl, rfl⟩

theorem Deaf.openTxn {s : State} (h : Deaf s) (b : Byte) (g : Bool) : Unheard s (s.openTxn b g) := by
  have hnew : Unheard s (s.newTxn b g) := by
    unfold State.newTxn
    split
    · exact h.csRise.trans ((h.csRise.deaf h).leadPoint b g)
    · exact h.leadPoint b g
  unfold State.openTxn
  split
  case h_1 | h_2 =>
    split
    · exact .refl h
    · exact hnew
  all_goals exact hnew

/-- No transaction is decoded, whatever would follow its lead byte. -/
theorem Deaf.decoded {s : State} (h : Deaf s) (b : Byte) (g : Bool) (act : Bool → State) :
    Unheard s (match (s.openTxn b g).decoding with
      | none => s.openTxn b g
      | some sampled => act sampled) := by
  have hnone : (s.openTxn b g).decoding = none := by
    rw [State.decoding, ((h.openTxn b g).deaf h).decodes]; rfl
  rw [hnone]
  exact h.openTxn b g

theorem Deaf.observe {s : State} (h : Deaf s) (env : Env) : s.observe env = s := by
  rw [State.observe, h.decodes]; rfl

/-- The engine starts nothing: it runs with RESET# high, in RUNNING or FAULTED (R37). -/
theorem Deaf.startNext {s : State} (h : Deaf s) (env : Env) : s.startNext env = s := by
  unfold State.startNext
  split
  · rename_i hready
    simp only [State.idleMedia, Bool.and_eq_true, Bool.not_eq_true'] at hready
    obtain ⟨⟨⟨⟨⟨-, -⟩, hreset⟩, -⟩, -⟩, hdev⟩ := hready
    rw [h.not_decoding hreset] at hdev
    cases hdev
  · rfl

theorem Deaf.mayReclaim {s : State} (h : Deaf s) : s.mayReclaim = false := by
  by_contra hmay
  simp only [Bool.not_eq_false, State.mayReclaim, State.idleMedia, Bool.and_eq_true, Bool.not_eq_true', beq_iff_eq] at hmay
  obtain ⟨⟨⟨⟨hdev, ⟨⟨⟨-, -⟩, hreset⟩, -⟩, -⟩, -⟩, -⟩, -⟩ := hmay
  rw [h.not_decoding hreset] at hdev
  cases hdev

theorem Deaf.attempting {s : State} (h : Deaf s) : s.attempting = false := by
  rw [State.attempting, h.job]
  by_contra hawaits
  simp only [Bool.not_eq_false, State.mountAwaitsSensor, Bool.and_eq_true, Bool.not_eq_true', beq_iff_eq] at hawaits
  obtain ⟨⟨⟨hdev, hreset⟩, -⟩, -⟩ := hawaits
  rw [h.not_decoding hreset] at hdev
  cases hdev

theorem Deaf.doImmediate {s : State} (h : Deaf s) (k : Kind) (tag : Byte) (params : List Byte) (env : Env) :
    Unheard s (s.doImmediate k tag params env) := h.decoded 0xA1 s.guardHigh _

theorem Deaf.doMedia {s : State} (h : Deaf s) (k : Kind) (tag : Byte) (params : List Byte) (env : Env) :
    Unheard s (s.doMedia k tag params env) := by
  rw [State.doMedia, h.observe]
  exact h.decoded 0xA1 s.guardHigh _

theorem Deaf.control {s : State} (h : Deaf s) (lead complement : Byte) (act : State → Bool → State × Byte) :
    Unheard s (s.control lead complement act) := h.decoded lead s.guardHigh _

/-- Where the link does not decode and nothing is in progress, a command that is no RESET# and no supply, and no WAKE unless
RESET# is low, changes nothing but the decoder. -/
theorem Deaf.exec {s : State} (h : Deaf s) (c : Instr) (hwake : s.resetLow = true ∨ ∀ x, c ≠ .wake x)
    (hpin : ∀ l rb, c ≠ .hardwareReset l rb) (hsupply : ∀ p rb, c ≠ .resetRelease p rb) :
    ∃ u, exec c s = .next u.settle ∧ Unheard s u := by
  have hstill : Unheard s s := .refl h
  have hwaking : ¬ (s.dev = .deepSleep ∧ s.resetLow = false) ∨ ∀ x, c ≠ .wake x :=
    hwake.imp_left fun hlow hs => by rw [hlow] at hs; cases hs.2
  have hdev : ∀ d : DevState, d ≠ .deepSleep → ¬ (s.dev = d ∧ s.resetLow = false) := fun d hd hs =>
    hd (hs.1.symm.trans (h.not_decoding hs.2))
  have hdo : ∀ {p : Prop} [Decidable p] (u : State), ¬ p → Unheard s (if p then u else s) := fun u hp => by
    rw [if_neg hp]; exact hstill
  have hjob := h.job
  cases c with
  | leadByte l =>
    refine ⟨_, rfl, ?_⟩
    unfold State.doLeadByte State.newTxn
    split
    · exact h.csRise.trans ((h.csRise.deaf h).leadPoint _ _)
    · exact h.leadPoint _ _
  | unknownLead b =>
    refine ⟨_, rfl, ?_⟩
    unfold State.doUnknownLead
    split
    · exact hstill
    · exact h.decoded b s.guardHigh _
  | overLongFrame kind tag len =>
    refine ⟨_, rfl, ?_⟩
    unfold State.doOverLong
    split
    · exact hstill
    · exact h.decoded 0xA1 s.guardHigh _
  | incompleteFrame b =>
    refine ⟨_, rfl, ?_⟩
    unfold State.doIncomplete
    split
    · exact (h.openTxn b s.guardHigh).trans ((h.openTxn b s.guardHigh).deaf h).csRise
    · exact hstill
  | submit kind tag params chk env =>
    refine ⟨_, rfl, ?_⟩
    rw [h.observe]
    exact h.decoded 0xA1 s.guardHigh _
  | fetch => exact ⟨_, rfl, h.decoded 0xA2 s.guardHigh _⟩
  | replyDelivery => exact ⟨_, rfl, hdo _ (by rw [h.decodes]; exact Bool.false_ne_true)⟩
  | refetch => exact ⟨_, rfl, h.decoded 0xA3 s.guardHigh _⟩
  | peek env => exact ⟨_, rfl, h.decoded 0xA4 env.guardHigh _⟩
  | sleep x => exact ⟨_, rfl, h.control 0xC1 x _⟩
  | enterDeepSleep =>
    refine ⟨_, rfl, hdo _ ?_⟩
    simp only [State.mayEnterSleep, Bool.and_eq_true, Bool.not_eq_true', beq_iff_eq]
    exact fun hs => hdev .running (by decide) ⟨hs.1.1.1, hs.2⟩
  | wake x =>
    refine ⟨_, rfl, ?_⟩
    rw [State.doWake, if_neg (hwaking.resolve_right fun hne => hne x rfl)]
    exact h.control 0xC2 x _
  | wakeReady => exact ⟨_, rfl, hdo _ (hdev .running (by decide))⟩
  | resetArm x => exact ⟨_, rfl, h.control 0xC3 x _⟩
  | reset x rb => exact ⟨_, rfl, h.control 0xC4 x _⟩
  | drainEnd => exact ⟨_, rfl, hdo _ fun hs => hdev .resetting (by decide) ⟨hs.1, hs.2.1⟩⟩
  | hardwareReset l rb => exact absurd rfl (hpin l rb)
  | resetRelease p rb => exact absurd rfl (hsupply p rb)
  | mountComplete env => exact ⟨_, rfl, hdo _ fun hs => hdev .mounting (by decide) ⟨hs.1, hs.2.1⟩⟩
  | tick => exact ⟨_, rfl, hdo _ (by rw [h.decodes]; exact Bool.false_ne_true)⟩
  | sampleAgeTick => exact ⟨_, rfl, hdo _ (by rw [h.decodes]; exact Bool.false_ne_true)⟩
  | requestStart env =>
    refine ⟨_, rfl, ?_⟩
    rw [State.doRequestStart, h.observe, h.startNext]; exact hstill
  | arrayOperationComplete rb => refine ⟨_, rfl, ?_⟩; rw [State.doArrayEnd, hjob]; exact hstill
  | arrayWatchdogTrip rb => refine ⟨_, rfl, ?_⟩; rw [State.doArrayEnd, hjob]; exact hstill
  | fuseOperationComplete rb => refine ⟨_, rfl, ?_⟩; rw [State.doFuseEnd, hjob]; exact hstill
  | backgroundReclaim env =>
    refine ⟨_, rfl, ?_⟩
    rw [h.observe]
    exact hdo _ (by rw [h.mayReclaim]; exact Bool.false_ne_true)
  | reclaimReconsider env =>
    refine ⟨_, rfl, ?_⟩
    rw [h.observe]
    exact hdo _ (by rw [h.mayReclaim]; exact Bool.false_ne_true)
  | stretchTimeout env =>
    refine ⟨_, rfl, ?_⟩
    rw [h.observe]
    exact hdo _ (by rw [h.attempting]; exact Bool.false_ne_true)
  | sensorAttempt run env =>
    refine ⟨_, rfl, ?_⟩
    rw [h.observe]
    exact hdo _ (by rw [h.attempting]; exact Bool.false_ne_true)
  | transactionEnd => exact ⟨_, rfl, h.csRise⟩
  | setTime tag params env => refine ⟨_, rfl, ?_⟩; rw [h.observe]; exact h.doImmediate _ tag params env
  | getIdentity tag params | getSettings tag params | streamInfo tag params | poolInfo tag params
  | readProfiles tag params | readEvents tag params | releaseEvents tag params | clearAlarms tag params
  | linkStats tag params | getTime tag params | arm tag params | abort tag params =>
    exact ⟨_, rfl, h.doImmediate _ tag params s.noInputs⟩
  | read tag params env | readNext tag params env | seek tag params env | sampleTemperature tag params env
  | setTemperature tag params env | writeProfile tag params env | append tag params env | trim tag params env
  | createStream tag params env | deleteStream tag params env | sealStream tag params env | setHold tag params env
  | clearHold tag params env | format tag params env | setOption tag params env | commitProfiles tag params env
  | setOwnerLabel tag params env | fixGuard tag params env => exact ⟨_, rfl, h.doMedia _ tag params env⟩

/-- Settles O9: in DEEP_SLEEP and while RESET# is low the link decodes nothing. -/
theorem asleepOrResetHearsNothingElse : Obligations.AsleepOrResetHearsNothingElse := by
  have hheard : ∀ {s : State} {c : Instr}, Deaf s → (∃ u, exec c s = .next u.settle ∧ Unheard s u) →
      ∃ t, exec c s = .next t ∧ t.sdo = .highZ ∧ (t.leadSdo = s.leadSdo ∨ t.leadSdo = none) ∧
        Becomes s t { s with csLow := t.csLow, txn := t.txn, leadSdo := t.leadSdo } := by
    rintro s c h ⟨u, hexec, hu⟩
    obtain ⟨hsdo, hlead, honly⟩ := hu.settle h
    exact ⟨_, hexec, hsdo, hlead, honly, fun a => by rw [honly]⟩
  refine ⟨?asleep, ?held⟩
  case asleep =>
    intro c s hdev hjob hsdo halert hwake hpin hsupply
    have h : Deaf s := ⟨by simp [State.linkDecodes, hdev], hjob, hsdo, halert⟩
    exact hheard h (h.exec c (.inr hwake) hpin hsupply)
  case held =>
    intro c s hlow hjob hsdo halert hpin hsupply
    have h : Deaf s := ⟨by simp [State.linkDecodes, hlow], hjob, hsdo, halert⟩
    exact hheard h (h.exec c (.inl hlow) hpin hsupply)

/-! ### Sleep and wake -/

theorem anyOutstanding_eq_false_iff (cs : List Context) :
    anyOutstanding cs = false ↔ ∀ c ∈ cs, c.isQueued = false ∧ c.isExecuting = false := by
  simp [anyOutstanding]

/-- Settles O29: the decision of SLEEP by its three branches, and the entry by what it sets. -/
theorem sleepIsDecidedThenEntered : Obligations.SleepIsDecidedThenEntered := by
  refine ⟨?decided, ?entered⟩
  case decided =>
    intro s h
    refine ⟨_, rfl, ?_⟩
    rw [State.doSleep, h.control_eq (by decide), if_pos (by decide)]
    have hout : anyOutstanding s.contexts = false ↔ ∀ c ∈ s.contexts, c.isQueued = false ∧ c.isExecuting = false :=
      anyOutstanding_eq_false_iff s.contexts
    by_cases hrun : s.dev = .running
    · cases hpend : s.sleepPending with
      | true =>
        have hact : (s.heard 0xC1).sleepAct = (s.heard 0xC1, resultIgnored) := by
          simp [State.sleepAct, State.heard, hrun, hpend]
        rw [hact, if_neg (by simp), if_pos ⟨hrun, rfl⟩]
        exact ⟨rfl, rfl, rfl, rfl, rfl, fun _ => rfl⟩
      | false =>
        cases hany : anyOutstanding s.contexts with
        | true =>
          have hact : (s.heard 0xC1).sleepAct = (s.heard 0xC1, resultRefused) := by
            simp [State.sleepAct, State.heard, hrun, hpend, hany]
          rw [hact, if_neg (fun hs => by rw [hout.mpr hs.2.2] at hany; cases hany), if_neg (by simp)]
          exact ⟨rfl, rfl, rfl, rfl, rfl, fun _ => rfl⟩
        | false =>
          have hact : (s.heard 0xC1).sleepAct =
              ({ s.heard 0xC1 with armLatch := none, sleepPending := true }, resultDone) := by
            simp [State.sleepAct, State.heard, hrun, hpend, hany]
          rw [hact, if_pos ⟨hrun, rfl, hout.mp hany⟩]
          exact ⟨rfl, rfl, rfl, rfl, rfl, fun _ => rfl⟩
    · have hact : (s.heard 0xC1).sleepAct = (s.heard 0xC1, resultRefused) := by
        simp [State.sleepAct, State.heard, hrun]
      rw [hact, if_neg (fun hs => hrun hs.1), if_neg (fun hs => hrun hs.1)]
      exact ⟨rfl, rfl, rfl, rfl, rfl, fun _ => rfl⟩
  case entered =>
    intro s hrun hpend hjob hreset
    have hmay : s.mayEnterSleep = true := by simp [State.mayEnterSleep, hrun, hpend, hjob, hreset]
    refine ⟨_, rfl, ?_⟩
    rw [State.doEnterDeepSleep, if_pos hmay]
    refine ⟨rfl, rfl, rfl, rfl, ?_, ?_, rfl, fun _ => rfl⟩
    · simp [State.settle, State.alertLevel, State.enterSleep]
    · intro hcs
      simp only [State.settle_txn, State.enterSleep, State.cutTransaction, hcs, if_true]
      cases s.txn <;> exact ⟨_, rfl⟩

/-- A lead byte that arrives in DEEP_SLEEP is watched, with nothing driven (R21). -/
theorem newTxn_asleep {s : State} (hdev : s.dev = .deepSleep) (hreset : s.resetLow = false) (hcs : s.csLow = false)
    (b : Byte) (g : Bool) :
    s.newTxn b g = { s with csLow := true, leadSdo := none, sdo := .highZ, txn := .lead b false } := by
  simp [State.newTxn, State.leadPoint, State.csFall, State.linkDecodes, hdev, hreset, hcs]

/-- Settles O30: a WAKE with CS# high opens the assertion it is watched in; one in an assertion cut off by the entry finds no
lead byte there. -/
theorem wakeReturnsToRunning : Obligations.WakeReturnsToRunning := by
  refine ⟨⟨?wakes, ?ignored⟩, ?unheard, ?ready⟩
  case wakes =>
    intro s hdev hreset hcs htxn
    have hopen : s.openTxn 0xC2 = { s with csLow := true, leadSdo := none, sdo := .highZ, txn := .lead 0xC2 false } := by
      simp [State.openTxn, htxn, newTxn_asleep hdev hreset hcs]
    refine ⟨_, rfl, ?_⟩
    rw [State.doWake, if_pos ⟨hdev, hreset⟩, State.wakeAsleep, hopen]
    exact ⟨rfl, rfl, rfl, rfl, rfl, rfl, rfl, rfl, rfl, fun _ => rfl⟩
  case ignored =>
    intro s h
    refine ⟨_, rfl, ?_⟩
    rw [State.doWake, if_neg (fun hs => h.2.1 hs.1), h.control_eq (by decide), if_pos (by decide)]
    exact ⟨rfl, rfl, rfl, rfl, rfl, fun _ => rfl⟩
  case unheard =>
    intro s x hdev hreset hsdo halert hx
    have hdeaf : s.linkDecodes = false := by simp [State.linkDecodes, hdev]
    refine ⟨_, rfl, ?_⟩
    rw [State.doWake, if_pos ⟨hdev, hreset⟩, State.wakeAsleep]
    obtain ⟨hx, hcs, htxn⟩ | ⟨hcs, htxn⟩ := hx
    · have hopen : s.openTxn 0xC2 = { s with csLow := true, leadSdo := none, sdo := .highZ, txn := .lead 0xC2 false } := by
        simp [State.openTxn, htxn, newTxn_asleep hdev hreset hcs]
      rw [hopen]
      simp only [if_neg hx]
      refine ⟨hdev, rfl, rfl, rfl, fun _ => rfl, fun hc => ?_, ?_, fun _ => rfl⟩
      · rw [hcs] at hc; cases hc
      · simp [State.settle, State.alertLevel, hdev, halert, hsdo]
    · have hopen : s.openTxn 0xC2 = s := by simp [State.openTxn, htxn, hcs]
      simp only [hopen, htxn]
      refine ⟨hdev, hsdo, hcs, rfl, fun hc => ?_, fun _ => htxn, ?_, fun _ => rfl⟩
      · rw [hcs] at hc; cases hc
      · simp [State.settle, State.alertLevel, hdev, halert]
  case ready =>
    intro s hdev hreset
    refine ⟨_, rfl, ?_⟩
    rw [State.doWakeReady, if_pos ⟨hdev, hreset⟩]
    exact ⟨rfl, rfl, fun _ => rfl⟩

/-! ### The reset-arm flag and the software reset -/

/-- A sensor attempt that a reset cuts off releases the bus; nothing else of the state changes (R117, R168). -/
theorem State.cutAttempt_frame (s : State) : s.cutAttempt = { s with sensorLog := s.cutAttempt.sensorLog } := by
  unfold State.cutAttempt State.releaseBus
  repeat' split
  all_goals rfl

theorem State.cutAttempt_of_job {s : State} {j : Job} (hj : s.job = some j) :
    s.cutAttempt.sensorLog = if j.op = .sensor then [.release] else s.sensorLog := by
  rw [State.cutAttempt, hj]
  dsimp only
  split <;> rfl

/-- The drain begins: what an erase leaves, and whether the operation goes on (R168). -/
theorem State.beginDrain_frame (s : State) (rb : ReadBack) : s.beginDrain rb = { s with
    job := (s.beginDrain rb).job, flash := (s.beginDrain rb).flash, catSegs := (s.beginDrain rb).catSegs,
    fuses := (s.beginDrain rb).fuses } := by
  unfold State.beginDrain
  split
  · rfl
  · split
    · rw [State.land_frame]
    · split <;> rfl

/-- An erase of the array leaves the fuse store alone. -/
theorem State.land_fuses_of_erase (s : State) {op : Operation} (h : op.isErase = true) (rb : ReadBack) (tripped : Bool) :
    (s.land op rb tripped).fuses = s.fuses := by
  cases op <;> first | rfl | cases h

theorem State.beginDrain_fuses (s : State) (rb : ReadBack) : (s.beginDrain rb).fuses = s.fuses := by
  unfold State.beginDrain
  split
  · rfl
  · split
    · rename_i herase; exact s.land_fuses_of_erase herase rb false
    · split <;> rfl

/-- Only an erase and a sensor attempt are abandoned (R168). -/
theorem State.beginDrain_job {s : State} {j : Job} (hj : s.job = some j) (rb : ReadBack) :
    (s.beginDrain rb).job = if j.op.isErase = true ∨ j.op = .sensor then none else s.job := by
  simp only [State.beginDrain, hj]
  by_cases herase : j.op.isErase = true
  · simp [herase]
  · by_cases hsensor : j.op = .sensor
    · simp [hsensor, Operation.isErase]
    · simp [herase, hsensor, hj]

theorem State.beginDrain_array {s : State} (h : ∀ j, s.job = some j → j.op.isErase = false) (rb : ReadBack) :
    (s.beginDrain rb).catSegs = s.catSegs ∧ (s.beginDrain rb).flash = s.flash := by
  unfold State.beginDrain
  split
  · exact ⟨rfl, rfl⟩
  · rename_i j hj
    simp only [h j hj, Bool.false_eq_true, if_false]
    split <;> exact ⟨rfl, rfl⟩

/-- Beginning the drain, with an attempt cut off, changes the record of the bus, the work in progress and the array: an
erase and an attempt are abandoned, and of the array an erase's segment alone changes (R168). -/
theorem State.drains (s : State) (rb : ReadBack) : ∃ log job flash segs,
    s.cutAttempt.beginDrain rb = { s with sensorLog := log, job := job, flash := flash, catSegs := segs } ∧
      (∀ j, s.job = some j → job = if j.op.isErase = true ∨ j.op = .sensor then none else s.job) ∧
      (∀ j, s.job = some j → log = if j.op = .sensor then [.release] else s.sensorLog) ∧
      ((∀ j, s.job = some j → j.op.isErase = false) → segs = s.catSegs ∧ flash = s.flash) ∧
      ∀ j, s.job = some j → OnlyTarget s { s with flash := flash, catSegs := segs } j.op := by
  have hcut := s.cutAttempt_frame
  have hlog : ∀ j, s.job = some j → s.cutAttempt.sensorLog = if j.op = .sensor then [.release] else s.sensorLog :=
    fun _ hj => State.cutAttempt_of_job hj
  generalize s.cutAttempt.sensorLog = log at *
  rw [hcut]
  have hdrain := State.beginDrain_frame { s with sensorLog := log } rb
  have hfuses := State.beginDrain_fuses { s with sensorLog := log } rb
  have hjob : ∀ j, s.job = some j → _ := fun j hj => State.beginDrain_job (s := { s with sensorLog := log }) hj rb
  have harray := State.beginDrain_array (s := { s with sensorLog := log }) (rb := rb)
  have htarget : ∀ j, s.job = some j → _ := fun j hj =>
    State.beginDrain_onlyTarget (s := { s with sensorLog := log }) rb hj
  generalize State.beginDrain { s with sensorLog := log } rb = d at *
  rw [hfuses] at hdrain
  exact ⟨log, d.job, d.flash, d.catSegs, hdrain, hjob, hlog, harray, fun j hj =>
    (htarget j hj).congr rfl rfl rfl rfl rfl hfuses.symm⟩

/-- Settles O31: the flag sampled at the lead point decides, and the drain begins with what it abandons. -/
theorem resetActsOnlyArmed : Obligations.ResetActsOnlyArmed := by
  refine ⟨?arm, ?reset⟩
  case arm =>
    intro s h
    refine ⟨_, rfl, ?_⟩
    rw [State.doResetArm, h.control_eq (by decide), if_pos (by decide)]
    exact ⟨rfl, rfl, rfl, rfl, rfl, fun _ => rfl⟩
  case reset =>
    intro s rb h
    refine ⟨_, rfl, ?_⟩
    rw [State.doReset, h.control_eq (by decide), if_pos (by decide)]
    cases harm : s.resetArm with
    | false => exact ⟨rfl, rfl, rfl, fun _ => ⟨rfl, rfl, fun _ => rfl⟩, fun hs => by cases hs⟩
    | true =>
      simp only [if_true]
      obtain ⟨log, job, flash, segs, hdrain, hjob, hlog, harray, htarget⟩ := (s.heard 0xC4).drains rb
      rw [State.softwareReset, hdrain]
      refine ⟨rfl, rfl, rfl, ?refused, ?acts⟩
      case refused => intro hs; cases hs
      intro _
      refine ⟨rfl, rfl, rfl, rfl, rfl, rfl, rfl, rfl, rfl, rfl, rfl, rfl, ?alert, rfl, rfl, rfl, rfl, rfl, rfl, rfl,
        ?target, ?left, ?abandoned, hlog, ?array⟩
      case alert => simp [State.settle, State.alertLevel, State.endDriving]
      case target => exact fun j hj => (htarget j hj).congr rfl rfl rfl rfl rfl rfl
      case left => exact fun j hj herase hsensor => (hjob j hj).trans (if_neg (by simp [herase, hsensor]))
      case abandoned => exact fun j hj hends => (hjob j hj).trans (if_pos hends)
      case array =>
        intro hnone
        obtain ⟨hcat, hflash⟩ := harray hnone
        exact ⟨hcat, fun a => congrArg (readByte · a) hflash⟩

/-! ### Time -/

theorem Sample.aged_eq (x : Machine.Sample) : x.aged =
    if x.value = none then x else { x with age := if x.age < 0xFFFFFFFE then x.age + 1 else 0xFFFFFFFE } := by
  unfold Sample.aged
  simp only [Option.isNone_iff_eq_none]
  rfl

/-- Settles O36: both count where the link decodes, and stand elsewhere. -/
theorem ticksAndMillisecondsCount : Obligations.TicksAndMillisecondsCount := by
  refine ⟨?ticks, ?ages⟩
  case ticks =>
    intro s
    refine ⟨_, rfl, ?_⟩
    unfold State.doTick
    split
    · rename_i hdec; rw [if_pos (s.decodes_iff.mp hdec)]; exact ⟨rfl, rfl, fun _ => rfl⟩
    · rename_i hdec; rw [if_neg (fun hs => hdec (s.decodes_iff.mpr hs))]; exact ⟨rfl, rfl, fun _ => rfl⟩
  case ages =>
    intro s
    refine ⟨_, rfl, ?_⟩
    unfold State.doSampleAge
    split
    · rename_i hdec
      obtain ⟨hreset, hdev⟩ := s.decodes_iff.mp hdec
      refine ⟨fun _ _ => ⟨Sample.aged_eq _, fun hj => ?_, fun j hj => ?_⟩, fun hs => ?_, rfl, rfl, fun _ => rfl⟩
      · simp [hj]
      · simp [hj, Job.aged, Committed.aged, Sample.aged_eq]
      · obtain hs | hs := hs
        · rw [hreset] at hs; cases hs
        · exact absurd hs hdev
    · rename_i hdec
      refine ⟨fun hreset hdev => absurd (linkDecodes_of hreset hdev) hdec, fun _ => ⟨rfl, rfl⟩, rfl, rfl, fun _ => rfl⟩

end Sys2Proof.Machine
end

section
/-! Intake (R27 to R32): the order of its codes, what an immediate request leaves alone, how a media request waits; and the
status word, field by field (R176). -/

namespace Sys2Proof.Machine

/-! ### Immediate requests leave the media alone (R34) -/

/-- Committed state, work in progress, the array, the fuse store and the device state stand as they were. -/
structure SameMedia (s t : State) : Prop where
  committed : t.committed = s.committed
  job : t.job = s.job
  flash : t.flash = s.flash
  catSegs : t.catSegs = s.catSegs
  fuses : t.fuses = s.fuses
  dev : t.dev = s.dev

theorem SameMedia.refl (s : State) : SameMedia s s := ⟨rfl, rfl, rfl, rfl, rfl, rfl⟩

theorem SameMedia.trans {s t u : State} (h : SameMedia s t) (h' : SameMedia t u) : SameMedia s u :=
  ⟨h'.committed.trans h.committed, h'.job.trans h.job, h'.flash.trans h.flash, h'.catSegs.trans h.catSegs,
    h'.fuses.trans h.fuses, h'.dev.trans h.dev⟩

theorem State.finish_sameMedia (s : State) (i : Nat) (r : Request) (st : Status) (payload : List Byte) :
    SameMedia s (s.finish i r st payload) := ⟨rfl, rfl, rfl, rfl, rfl, rfl⟩

theorem State.abortAll_sameMedia (form : AbortForm) (fuel : Nat) (s : State) :
    SameMedia s (State.abortAll form fuel s).1 := by
  induction fuel generalizing s with
  | zero => exact .refl s
  | succ fuel ih =>
    unfold State.abortAll
    split
    · exact .refl s
    · rename_i s' hone
      refine SameMedia.trans ?_ (ih s')
      unfold State.abortOne at hone
      split at hone
      · cases hone
      · split at hone
        · cases hone; exact State.finish_sameMedia _ _ _ _ _
        · cases hone

theorem State.answer_sameMedia (s : State) (k : Kind) (params : List Byte) (env : Env) :
    SameMedia s (s.answer k params env).1 := by
  have hreport : ∀ st, SameMedia s (s.declines st).1 := fun _ => .refl s
  cases k with
  | setTime =>
    dsimp only [State.answer, State.answerSetTime]
    split
    · exact hreport _
    · split
      · exact hreport _
      · exact ⟨rfl, rfl, rfl, rfl, rfl, rfl⟩
  | abort =>
    dsimp only [State.answer, State.answerAbort]
    split
    · exact hreport _
    · exact State.abortAll_sameMedia _ _ s
  | releaseEvents => dsimp only [State.answer, State.answerReleaseEvents]; split <;> exact ⟨rfl, rfl, rfl, rfl, rfl, rfl⟩
  | clearAlarms => dsimp only [State.answer, State.answerClearAlarms]; split <;> exact ⟨rfl, rfl, rfl, rfl, rfl, rfl⟩
  | linkStats => dsimp only [State.answer, State.answerLinkStats]; split <;> exact ⟨rfl, rfl, rfl, rfl, rfl, rfl⟩
  | arm => dsimp only [State.answer, State.answerArm]; split <;> exact ⟨rfl, rfl, rfl, rfl, rfl, rfl⟩
  | getIdentity => dsimp only [State.answer, State.answerIdentity]; split <;> exact hreport .ok
  | getSettings => dsimp only [State.answer, State.answerSettings]; split <;> exact hreport .ok
  | streamInfo => dsimp only [State.answer, State.answerStreamInfo]; split <;> exact hreport .ok
  | poolInfo => dsimp only [State.answer, State.answerPoolInfo]; split <;> exact hreport .ok
  | readProfiles => dsimp only [State.answer, State.answerProfiles]; split <;> exact hreport .ok
  | readEvents => dsimp only [State.answer, State.answerReadEvents]; split <;> exact hreport .ok
  | getTime => dsimp only [State.answer, State.answerGetTime]; split <;> exact hreport .ok
  | _ => exact hreport .ok

theorem State.takeDecision_sameMedia (s : State) {k : Kind} (hk : k.isMedia = false) (tag : Byte) (params : List Byte)
    (env : Env) : SameMedia s (s.takeDecision k.code tag params env).1 := by
  simp only [State.takeDecision, kindOf_code]
  split
  · unfold State.accept
    split
    · exact .refl s
    · simp only [hk]
      exact SameMedia.trans (t := s.takeIn k) ⟨rfl, rfl, rfl, rfl, rfl, rfl⟩
        ((State.answer_sameMedia _ k params env).trans (State.finish_sameMedia _ _ _ _ _))
  · exact .refl s

theorem State.submitFrame_sameMedia (s : State) {k : Kind} (hk : k.isMedia = false) (tag : Byte) (params : List Byte)
    (chk : Half) (env : Env) : SameMedia s (s.submitFrame k.code tag params chk env) := by
  unfold State.submitFrame
  split
  · exact ⟨rfl, rfl, rfl, rfl, rfl, rfl⟩
  · split
    · exact (s.takeDecision_sameMedia hk tag params env).trans ⟨rfl, rfl, rfl, rfl, rfl, rfl⟩
    · exact ⟨rfl, rfl, rfl, rfl, rfl, rfl⟩

/-- Settles O10: every answer of an immediate kind leaves the media alone. -/
theorem immediateRequestsLeaveMediaAlone : Obligations.ImmediateRequestsLeaveMediaAlone := by
  intro k tag params chk env s t hk h hexec
  rw [h.exec_submit] at hexec
  cases hexec
  obtain ⟨hcommitted, hjob, hflash, hcat, hfuses, hdev⟩ := (s.openedWith env).submitFrame_sameMedia hk tag params chk env
  exact ⟨hcommitted, hjob, hflash, hcat, hfuses, hdev, fun a => congrArg (readByte · a) hflash⟩

/-! ### The order of intake -/

/-- The bytes that are codes of the summary table (R26). -/
abbrev KnownKind (b : Byte) : Prop :=
  1 ≤ b.toNat ∧ b.toNat ≤ 0x0D ∨ 0x20 ≤ b.toNat ∧ b.toNat ≤ 0x25 ∨ 0x30 ≤ b.toNat ∧ b.toNat ≤ 0x38 ∨
    0x3A ≤ b.toNat ∧ b.toNat ≤ 0x3C

/-- A byte names a kind exactly if it is one of the summary table's codes. -/
theorem kindOf_isSome_iff : ∀ b : Byte, (kindOf b).isSome = true ↔ KnownKind b := by
  decide +kernel

theorem Kind.isMedia_iff (k : Kind) : k.isMedia = true ↔ 0x20 ≤ k.code.toNat := by cases k <;> decide

theorem Kind.allowedFaulted_iff (k : Kind) :
    k.allowedFaulted = true ↔ k.code ∈ ([0x01, 0x06, 0x07, 0x08, 0x09, 0x0C, 0x0D, 0x37] : List Byte) := by
  cases k <;> decide

/-- The state check of R28, as a code. -/
theorem State.intakeState_eq (s : State) (hdev : s.dev ≠ .deepSleep) (kind : Byte) : s.intakeState (kindOf kind) =
    if s.dev = .mounting ∨ s.dev = .resetting ∨ (s.dev = .running ∧ s.sleepPending = true) then some .notReady
    else if s.dev = .faulted ∧ kind ∉ ([0x01, 0x06, 0x07, 0x08, 0x09, 0x0C, 0x0D, 0x37] : List Byte)
      then some .deviceFault
    else none := by
  unfold State.intakeState
  cases hd : s.dev with
  | mounting => simp
  | running => cases s.sleepPending <;> simp
  | resetting => simp
  | deepSleep => exact absurd hd hdev
  | faulted =>
    cases hk : kindOf kind with
    | none =>
      have hnot : kind ∉ ([0x01, 0x06, 0x07, 0x08, 0x09, 0x0C, 0x0D, 0x37] : List Byte) := by
        intro hmem
        have hknown : KnownKind kind := by
          revert hmem; revert kind; decide +kernel
        rw [← kindOf_isSome_iff, hk] at hknown
        cases hknown
      exact ((if_neg (by simp)).trans (if_pos ⟨rfl, hnot⟩)).symm
    | some k =>
      rw [code_of_kindOf hk]
      by_cases hallow : k.allowedFaulted = true
      · have hmem := k.allowedFaulted_iff.mp hallow
        exact (if_pos hallow).trans ((if_neg (by simp)).trans (if_neg fun hs => hs.2 hmem)).symm
      · have hnot := mt k.allowedFaulted_iff.mpr hallow
        exact (if_neg hallow).trans ((if_neg (by simp)).trans (if_pos ⟨rfl, hnot⟩)).symm

/-- The code of the first check that fails (R27). -/
theorem State.intake_code (s : State) (hdev : s.dev ≠ .deepSleep) (kind tag : Byte) :
    (s.intake (kindOf kind) tag).code =
      if s.dev = .mounting ∨ s.dev = .resetting ∨ (s.dev = .running ∧ s.sleepPending = true) then 0x01
      else if s.dev = .faulted ∧ kind ∉ ([0x01, 0x06, 0x07, 0x08, 0x09, 0x0C, 0x0D, 0x37] : List Byte) then 0x07
      else if ¬ KnownKind kind then 0x03
      else if ∃ c ∈ s.contexts, c.hasTag tag = true then 0x04
      else if ∀ c ∈ s.contexts, c.isFree = false then 0x05
      else if 0x20 ≤ kind.toNat ∧ 6 ≤ mediaCount s.contexts then 0x06
      else 0x00 := by
  have htag : s.contexts.any (Context.hasTag tag) = true ↔ ∃ c ∈ s.contexts, c.hasTag tag = true := List.any_eq_true
  have hfree : freeCount s.contexts = 0 ↔ ∀ c ∈ s.contexts, c.isFree = false := by
    simp [freeCount, List.countP_eq_zero]
  have hkind := kindOf_isSome_iff kind
  unfold State.intake
  rw [s.intakeState_eq hdev]
  split
  case h_1 code hcode =>
    split at hcode
    case isTrue hnot => cases hcode; rw [if_pos hnot]; rfl
    case isFalse hnot =>
      split at hcode
      case isTrue hfault => cases hcode; rw [if_neg hnot, if_pos hfault]; rfl
      case isFalse => cases hcode
  case h_2 hcode =>
    split at hcode
    case isTrue => cases hcode
    case isFalse hnot =>
      split at hcode
      case isTrue => cases hcode
      case isFalse hfault =>
        rw [if_neg hnot, if_neg hfault]
        cases hk : kindOf kind with
        | none =>
          have hun : ¬ KnownKind kind := by rw [← hkind, hk]; simp
          exact (if_pos hun).symm
        | some k =>
          have hknown : ¬ ¬ KnownKind kind := by rw [← hkind, hk]; simp
          have hmedia : k.isMedia = true ↔ 0x20 ≤ kind.toNat := by rw [code_of_kindOf hk]; exact k.isMedia_iff
          rw [if_neg hknown]
          simp only [htag, hfree, hmedia, maxMedia]
          split_ifs <;> rfl

/-- A frame with its own check, of a length that R7 permits, is intact. -/
theorem State.submitFrame_intact (s : State) (kind tag : Byte) {params : List Byte} (env : Env)
    (hlen : params.length ≤ 520) :
    s.submitFrame kind tag params (check (kind :: tag :: be16 params.length ++ params)) env =
      s.submitIntact kind tag params env := by
  unfold State.submitFrame
  rw [if_neg (show ¬ maxParams < params.length from Nat.not_lt.mpr hlen)]
  exact if_pos rfl

/-- Settles O21: an intact frame drives the code of its intake decision. -/
theorem intakeCodeIsFirstFailure : Obligations.IntakeCodeIsFirstFailure := by
  intro s kind tag params env h hlen
  have hcode := (s.openedWith env).intake_code h.2.1 kind tag
  refine ⟨_, _, h.exec_submit kind tag params _ env, ?_, rfl⟩
  rw [State.submitFrame_intact _ _ _ _ hlen, State.submitIntact, State.takeDecision_code]
  exact congrArg (fun code => Sdo.drive [0xFF, code, _] 0xFF) hcode

/-! ### A media request that waits -/

/-- The armed mark of intake (R141). -/
theorem armMatches_eq_decide (latch : Option ArmPair) (k : Kind) (params : List Byte) : armMatches latch k params =
    decide (k ∈ [.deleteStream, .format, .commitProfiles, .setOwnerLabel, .fixGuard] ∧
      ∃ p, latch = some p ∧ p.kind = k ∧ (k = .deleteStream → params.head? = some p.id)) := by
  have harmed : k.isArmed = true ↔ k ∈ [.deleteStream, .format, .commitProfiles, .setOwnerLabel, .fixGuard] := by
    cases k <;> decide
  rw [Bool.eq_iff_iff, decide_eq_true_eq, ← harmed]
  cases latch with
  | none => simp [armMatches]
  | some p =>
    simp only [armMatches, Bool.and_eq_true, Bool.or_eq_true, beq_iff_eq, bne_iff_ne, Option.some.injEq, exists_eq_left']
    tauto

/-- Settles O23: intake accepts, and the request is put into the lowest FREE context. -/
theorem submitQueuesMediaRequest : Obligations.SubmitQueuesMediaRequest := by
  intro s k tag params env hk hacc hroom hlen
  have h := hacc.linkIdle
  obtain ⟨i, hfree, hlow, hlt⟩ := firstFree_spec hacc.2.2.2.2.2.2
  have hintake : (s.openedWith env).intake (some k) tag = .accepted :=
    State.decision_of_accepts hacc rfl rfl rfl k fun _ => hroom
  have hfree' : firstFree (s.openedWith env).contexts = some i := hfree
  have hframe : (s.openedWith env).submitFrame k.code tag params (check (k.code :: tag :: be16 params.length ++ params))
      env = ({ (s.openedWith env).takeIn k with
        contexts := s.contexts.set i (.held ((s.openedWith env).newRequest k tag params) .queued) }).driveIntake
          .accepted := by
    rw [State.submitFrame_intact _ _ _ _ hlen, State.submitIntact]
    simp only [State.takeDecision, kindOf_code, hintake, if_true, State.accept, hfree', hk]
    rfl
  have hlatch : latchAfter s.armLatch k = none := if_neg (by rintro rfl; cases hk)
  have hcount : freeCount (s.contexts.set i (.held ((s.openedWith env).newRequest k tag params) .queued)) =
      freeCount s.contexts - 1 := freeCount_set hlow.1 rfl
  refine ⟨_, i, h.exec_submit k.code tag params _ env, ?_⟩
  rw [hframe]
  refine ⟨⟨rfl, rfl, rfl, ?_⟩, hlow, rfl, rfl, hlatch, ?_, rfl, fun _ => rfl⟩
  · exact congrArg (fun n => Sdo.drive [0xFF, 0x00, byteOf n] 0xFF) hcount
  · rw [← armMatches_eq_decide]; rfl

end Sys2Proof.Machine
end

section
namespace Sys2Proof.Machine

/-! ### The status word -/

theorem field_eq (b : Bool) (k : Nat) : field b k = b.toNat * 2 ^ k := by
  cases b <;> simp [field]

/-- A bit of a word, from the number the word holds. -/
theorem getLsbD_ofNat_of_div {n k : Nat} {b : Bool} (hk : k < 32) (h : n / 2 ^ k % 2 = b.toNat) :
    (BitVec.ofNat 32 n).getLsbD k = b := by
  rw [BitVec.getLsbD_ofNat, Nat.testBit_eq_decide_div_mod_eq, h]
  cases b <;> simp [hk]

/-- A field of a word, from the number the word holds. -/
theorem extractLsb'_ofNat_of_div {n k w m : Nat} (hn : n < 2 ^ 32) (h : n / 2 ^ k % 2 ^ w = m) :
    ((BitVec.ofNat 32 n).extractLsb' k w).toNat = m := by
  rw [BitVec.extractLsb'_toNat, BitVec.toNat_ofNat, Nat.mod_eq_of_lt hn, Nat.shiftRight_eq_div_pow, h]

/-- The values whose fields make up the status word (R176). -/
structure StatusParts where
  dev : Nat
  executing : Bool
  guard : Bool
  pin : Bool
  armed : Bool
  latch : Bool
  free : Nat
  done : Nat
  events : Bool
  overflow : Bool
  unset : Bool
  fallback : Bool
  inhibited : Bool
  shown : Nat
  pool : Bool
  readOnly : Bool
  alarms : Nat

/-- The sum of the fields, each at its place (R176). -/
def StatusParts.sum (p : StatusParts) : Nat :=
  p.dev * 2 ^ 29 + field p.executing 28 + field p.guard 27 + field p.pin 26 + field p.armed 25 + field p.latch 24 +
    p.free * 2 ^ 20 + p.done * 2 ^ 16 + field p.events 15 + field p.overflow 14 + field p.unset 13 +
    field p.fallback 12 + field p.inhibited 11 + p.shown * 2 ^ 8 + field p.pool 7 + field p.readOnly 6 + p.alarms

/-- Every value fits its field. -/
structure StatusParts.Fits (p : StatusParts) : Prop where
  dev : p.dev ≤ 4
  free : p.free ≤ 8
  done : p.done ≤ 8
  shown : p.shown ≤ 7
  alarms : p.alarms < 64

/-- Where every value fits, no field carries into another. -/
theorem StatusParts.Fits.fields {p : StatusParts} (h : p.Fits) :
    let w := BitVec.ofNat 32 p.sum
    ((w.extractLsb' 29 3).toNat = p.dev ∧ w.getLsbD 28 = p.executing ∧ w.getLsbD 27 = p.guard ∧ w.getLsbD 26 = p.pin ∧
      w.getLsbD 25 = p.armed ∧ w.getLsbD 24 = p.latch ∧ (w.extractLsb' 20 4).toNat = p.free ∧
      (w.extractLsb' 16 4).toNat = p.done ∧ w.getLsbD 15 = p.events) ∧
    w.getLsbD 14 = p.overflow ∧ w.getLsbD 13 = p.unset ∧ w.getLsbD 12 = p.fallback ∧ w.getLsbD 11 = p.inhibited ∧
      (w.extractLsb' 8 3).toNat = p.shown ∧ w.getLsbD 7 = p.pool ∧ w.getLsbD 6 = p.readOnly ∧
      (w.extractLsb' 0 6).toNat = p.alarms := by
  obtain ⟨hdev, hfree, hdone, hshown, halarms⟩ := h
  have := p.executing.toNat_le; have := p.guard.toNat_le; have := p.pin.toNat_le; have := p.armed.toNat_le
  have := p.latch.toNat_le; have := p.events.toNat_le; have := p.overflow.toNat_le; have := p.unset.toNat_le
  have := p.fallback.toNat_le; have := p.inhibited.toNat_le; have := p.pool.toNat_le; have := p.readOnly.toNat_le
  have hlt : p.sum < 2 ^ 32 := by simp only [StatusParts.sum, field_eq]; omega
  refine ⟨⟨extractLsb'_ofNat_of_div hlt ?_, getLsbD_ofNat_of_div (by decide) ?_, getLsbD_ofNat_of_div (by decide) ?_,
    getLsbD_ofNat_of_div (by decide) ?_, getLsbD_ofNat_of_div (by decide) ?_, getLsbD_ofNat_of_div (by decide) ?_,
    extractLsb'_ofNat_of_div hlt ?_, extractLsb'_ofNat_of_div hlt ?_, getLsbD_ofNat_of_div (by decide) ?_⟩,
    getLsbD_ofNat_of_div (by decide) ?_, getLsbD_ofNat_of_div (by decide) ?_, getLsbD_ofNat_of_div (by decide) ?_,
    getLsbD_ofNat_of_div (by decide) ?_, extractLsb'_ofNat_of_div hlt ?_, getLsbD_ofNat_of_div (by decide) ?_,
    getLsbD_ofNat_of_div (by decide) ?_, extractLsb'_ofNat_of_div hlt ?_⟩
  all_goals simp only [StatusParts.sum, field_eq]; omega

/-- The values of the status word (R176, R177). -/
def State.statusParts (s : State) (guard armed : Bool) : StatusParts where
  dev := s.dev.code
  executing := s.contexts.any Context.isExecuting
  guard := s.committed.guardEngaged guard
  pin := guard
  armed := armed
  latch := s.armLatch.isSome
  free := freeCount s.contexts
  done := doneCount s.contexts
  events := !s.events.isEmpty
  overflow := s.overflow != 0
  unset := s.timeUnset
  fallback := s.committed.sample.fallback
  inhibited := !(s.committed.profile s.shownProfile).permits
  shown := s.shownProfile
  pool := s.poolLow
  readOnly := s.committed.cat.readOnly
  alarms := s.alarms.toNat

/-- The index shown, by the device state and the index that a faulted mount left (R177). -/
theorem State.shownProfile_eq (s : State) : s.shownProfile = match s.dev, s.faultedProfile with
    | .faulted, some i | .resetting, some i => i
    | _, _ => s.committed.activeProfile := by
  unfold State.shownProfile
  cases s.dev <;> cases s.faultedProfile <;> rfl

theorem State.shownProfile_le {s : State} (hactive : s.committed.activeProfile ≤ 7)
    (hfaulted : ∀ i, s.faultedProfile = some i → i ≤ 7) : s.shownProfile ≤ 7 := by
  have hgetD : s.faultedProfile.getD s.committed.activeProfile ≤ 7 := by
    cases hp : s.faultedProfile with
    | none => exact hactive
    | some i => exact hfaulted i hp
  unfold State.shownProfile
  split <;> assumption

theorem Committed.guardEngaged_iff (c : Committed) (pin : Bool) : c.guardEngaged pin = true ↔
    c.fuse.guardA = .blown ∨ c.fuse.guardB = .blown ∨ c.tables.settings.guardMode = 0x0001 ∧ pin = false := by
  simp [Committed.guardEngaged, FuseCopies.guardFixed, or_assoc]

/-- Settles O27: the lead point fixes the word and its check; the word's fields do not carry into each other. -/
theorem peekCapturesStatusWord : Obligations.PeekCapturesStatusWord := by
  refine ⟨?peek, ?word, Committed.guardEngaged_iff⟩
  case peek =>
    intro s env h
    refine ⟨_, rfl, ?_⟩
    rw [h.doPeek_eq]
    exact ⟨rfl, rfl, rfl, rfl, rfl, fun _ => rfl⟩
  case word =>
    intro s guard armed hlen hactive hfaulted
    have hfits : (s.statusParts guard armed).Fits :=
      ⟨by show s.dev.code ≤ 4; cases s.dev <;> decide, hlen ▸ List.countP_le_length, hlen ▸ List.countP_le_length,
        State.shownProfile_le hactive hfaulted, s.alarms.isLt⟩
    obtain ⟨⟨hdev, hexec, hguard, hpin, harmed, hlatch, hfree, hdone, hevents⟩, hover, hunset, hfall, hinh, hshown, hpool,
      hro, halarms⟩ := hfits.fields
    dsimp only
    refine ⟨?_, hexec, hguard, hpin, harmed, hlatch, hfree, hdone, hevents, hover, hunset, hfall,
      hinh.trans (congrArg (fun i => !(s.committed.profile i).permits) s.shownProfile_eq), hshown.trans s.shownProfile_eq, hpool,
      hro, BitVec.eq_of_toNat_eq halarms⟩
    refine BitVec.eq_of_toNat_eq (hdev.trans ?_)
    show s.dev.code = _
    cases s.dev <;> rfl

end Sys2Proof.Machine
end

section
namespace Sys2Proof.Machine

/-! ### Selection of the profile -/

/-- An entry 1 to 7 that is used and whose range holds the value (R124). -/
def profileMatches (ps : List Profile) (v : Half) (i : Nat) : Prop :=
  1 ≤ i ∧ i ≤ 7 ∧ ∃ p, ps[i]? = some p ∧ p.used = true ∧ p.low.toInt ≤ v.toInt ∧ v.toInt < p.high.toInt

theorem Profile.holds_iff (p : Profile) (v : Half) :
    p.holds v = true ↔ p.used = true ∧ p.low.toInt ≤ v.toInt ∧ v.toInt < p.high.toInt := by
  simp [Profile.holds, and_assoc]

/-- The entry past the end of a table holds no value. -/
theorem getD_holds_iff (ps : List Profile) (v : Half) (i : Nat) :
    (ps.getD i ⟨false, 0, 0, false, 0, 0⟩).holds v = true ↔
      ∃ p, ps[i]? = some p ∧ p.used = true ∧ p.low.toInt ≤ v.toInt ∧ v.toInt < p.high.toInt := by
  rw [List.getD_eq_getElem?_getD]
  cases h : ps[i]? with
  | none => simp [Profile.holds]
  | some p => simp [Profile.holds_iff]

theorem foldl_max_mem : ∀ (l : List Nat) (a : Nat), l.foldl max a ∈ a :: l
  | [], a => by simp
  | b :: l, a => by
    rcases List.mem_cons.mp (foldl_max_mem l (max a b)) with h | h
    · rw [List.foldl_cons, h]
      rcases max_choice a b with hm | hm <;> simp [hm]
    · exact List.mem_cons_of_mem _ (List.mem_cons_of_mem _ h)

theorem le_foldl_max {l : List Nat} {a x : Nat} (h : x ∈ a :: l) : x ≤ l.foldl max a := by
  induction l generalizing a x with
  | nil => simp_all
  | cons b l ih =>
    rw [List.foldl_cons]
    rcases List.mem_cons.mp h with rfl | h
    · exact (le_max_left x b).trans (ih List.mem_cons_self)
    · rcases List.mem_cons.mp h with rfl | h
      · exact (le_max_right a x).trans (ih List.mem_cons_self)
      · exact ih (List.mem_cons_of_mem _ h)

/-- The candidates of a selection are the matching entries. -/
theorem mem_candidates_iff (ps : List Profile) (v : Half) (i : Nat) :
    i ∈ [1, 2, 3, 4, 5, 6, 7].filter (fun i => (ps.getD i ⟨false, 0, 0, false, 0, 0⟩).holds v) ↔ profileMatches ps v i := by
  have hrange : i ∈ [1, 2, 3, 4, 5, 6, 7] ↔ 1 ≤ i ∧ i ≤ 7 := by simp; omega
  rw [List.mem_filter, hrange, getD_holds_iff, and_assoc]
  rfl

/-- Settles O49: the greatest of the candidates is a candidate, or there is none. -/
theorem selectionTakesHighestMatch : Obligations.SelectionTakesHighestMatch := by
  intro ps v
  refine ⟨rfl, ?_, fun i hi => ?_⟩
  · rcases List.mem_cons.mp (foldl_max_mem _ 0) with h | h
    · exact .inr h
    · exact .inl ((mem_candidates_iff ps v _).mp h)
  · exact le_foldl_max (List.mem_cons_of_mem _ ((mem_candidates_iff ps v i).mpr hi))

/-! ### A profile table in a fuse bank -/

theorem ofBe_be16 (n : Nat) (h : n < 2 ^ 16) : ofBe (be16 n) = n := by
  simp only [ofBe, be16, byteOf, List.foldl_cons, List.foldl_nil, BitVec.toNat_ofNat]
  omega

theorem parseFlag_flagByte (b : Bool) : parseFlag (flagByte b) = some b := by cases b <;> rfl

/-- The entry that eight bytes hold: its classes in one byte each. -/
def Profile.inBytes (p : Profile) : Profile :=
  { p with programClass := p.programClass % 256, eraseClass := p.eraseClass % 256 }

theorem Profile.inBytes_of_le {p : Profile} (h : p.programClass ≤ 3 ∧ p.eraseClass ≤ 3) : p.inBytes = p := by
  have hp : p.programClass % 256 = p.programClass := Nat.mod_eq_of_lt (by omega)
  have he : p.eraseClass % 256 = p.eraseClass := Nat.mod_eq_of_lt (by omega)
  simp [Profile.inBytes, hp, he]

theorem readProfile_profileBytes (p : Profile) : readProfile (profileBytes p) =
    if p.inBytes.programClass ≤ 3 ∧ p.inBytes.eraseClass ≤ 3 then some p.inBytes else none := by
  have hlow : ofBe [byteOf (p.low.toNat / 256), byteOf p.low.toNat] = p.low.toNat := ofBe_be16 _ p.low.isLt
  have hhigh : ofBe [byteOf (p.high.toNat / 256), byteOf p.high.toNat] = p.high.toNat := ofBe_be16 _ p.high.isLt
  have hclass (n : Nat) : (byteOf n).toNat = n % 256 := BitVec.toNat_ofNat n 8
  simp [profileBytes, be16, readProfile, parseFlag_flagByte, hlow, hhigh, Profile.inBytes, hclass]
  rfl

theorem tableBytes_length (ps : List Profile) : (tableBytes ps).length = 8 * ps.length := by
  induction ps with
  | nil => rfl
  | cons p ps ih =>
    have : tableBytes (p :: ps) = profileBytes p ++ tableBytes ps := rfl
    have hp : (profileBytes p).length = 8 := rfl
    rw [this, List.length_append, ih, hp, List.length_cons]
    omega

/-- The entry records of a table are its entries' records, each on its own. -/
theorem readEntries_tableBytes {ps : List Profile} (h : ps.length = 8) :
    readEntries (tableBytes ps) = ps.mapM (fun p => readProfile (profileBytes p)) := by
  match ps, h with
  | [_, _, _, _, _, _, _, _], _ => rfl

/-- A bank of a table's bytes has a good length and check; its entries decide. -/
theorem goodBank_bankBytes {ps : List Profile} (h : ps.length = 8) : goodBank (some (bankBytes ps)) =
    match ps.mapM (fun p => readProfile (profileBytes p)) with
    | some qs => if (qs.getD 0 ⟨false, 0, 0, false, 0, 0⟩).used then some qs else none
    | none => none := by
  have hlen : (tableBytes ps).length = 64 := by rw [tableBytes_length, h]
  have hbank : (bankBytes ps).length = 66 := by rw [bankBytes, List.length_append, hlen]; rfl
  have htake : (bankBytes ps).take 64 = tableBytes ps := List.take_left' hlen
  have hdrop : (bankBytes ps).drop 64 = checkBytes (tableBytes ps) := List.drop_left' hlen
  rw [goodBank, if_pos ⟨hbank, by rw [htake, hdrop]⟩, htake, readEntries_tableBytes h] <;> rfl

/-- What can be read of the records of some entries is the entries themselves, their classes in one byte each. -/
theorem mapM_readProfile_eq {ps qs : List Profile} (h : ps.mapM (fun p => readProfile (profileBytes p)) = some qs) :
    qs = ps.map Profile.inBytes := by
  induction ps generalizing qs with
  | nil => simp_all
  | cons p ps ih =>
    rw [List.mapM_cons, readProfile_profileBytes] at h
    split at h
    · cases hrest : ps.mapM (fun p => readProfile (profileBytes p)) with
      | none => simp [hrest] at h
      | some rs =>
        have : p.inBytes :: rs = qs := by simpa [hrest] using h
        rw [← this, ih hrest, List.map_cons]
    · simp at h

theorem mapM_readProfile_of_le {ps : List Profile} (h : ∀ p ∈ ps, p.programClass ≤ 3 ∧ p.eraseClass ≤ 3) :
    ps.mapM (fun p => readProfile (profileBytes p)) = some ps := by
  induction ps with
  | nil => rfl
  | cons p ps ih =>
    have hp := h p List.mem_cons_self
    rw [List.mapM_cons, readProfile_profileBytes, Profile.inBytes_of_le hp, if_pos hp,
      ih (fun q hq => h q (List.mem_cons_of_mem _ hq))]
    rfl

theorem getD_zero_used (ps : List Profile) :
    (ps.getD 0 ⟨false, 0, 0, false, 0, 0⟩).used = (ps.head?.map Profile.used).getD false := by
  cases ps <;> rfl

/-- Settles O14: length and check of a written bank hold, so its entries decide, and each reads back alone. -/
theorem profileBankReadsBack : Obligations.ProfileBankReadsBack := by
  refine ⟨?written, rfl, ?malformed, ?unused⟩
  case written =>
    intro ps hlen hclasses hused
    rw [goodBank_bankBytes hlen, mapM_readProfile_of_le hclasses]
    exact if_pos (by rw [getD_zero_used, hused]; rfl)
  case malformed =>
    intro bs h
    exact if_neg (by tauto)
  case unused =>
    intro ps hlen hused
    rw [goodBank_bankBytes hlen]
    split
    · next qs hqs =>
      have hhead : (qs.head?.map Profile.used).getD false = false := by
        rw [mapM_readProfile_eq hqs]
        cases ps with
        | nil => rfl
        | cons p ps => simpa [Profile.inBytes] using hused
      rw [getD_zero_used, hhead]
      rfl
    · rfl

end Sys2Proof.Machine
end

section
namespace Sys2Proof.Machine

/-! ### A record's bytes in its slot -/

/-- The head of an APPEND's record (R88). -/
def appendHead (st : Stream) (a : AppendData) : List Byte := recordHead st.next a.payload.length a.flags

/-- A slot as a record's body and mark programs leave it: head, mark, optional fields and payload, padding, check (R88). -/
def slotImage (st : Stream) (a : AppendData) : List Byte :=
  appendHead st a ++ [commitMark] ++ recordTail st a ++
    List.replicate (st.slotSize - 10 - (recordTail st a).length) erasedByte ++
    checkBytes (appendHead st a ++ recordTail st a)

/-- The cells that the body and the mark of a record program. -/
def slotCells (st : Stream) (a : AppendData) (base : Nat) : List Host.Cell := bodyCells st a base ++ markCell base

theorem writeCells_append (m cells cells' : List Host.Cell) :
    writeCells m (cells ++ cells') = writeCells (writeCells m cells) cells' := List.foldl_append

theorem slotCells_eq (st : Stream) (a : AppendData) (base : Nat) : slotCells st a base =
    cellsAt base (appendHead st a) ++ cellsAt (base + 8) (recordTail st a) ++
      cellsAt (base + st.slotSize - 2) (checkBytes (appendHead st a ++ recordTail st a)) ++ cellsAt (base + 7) [commitMark] :=
  rfl

theorem appendHead_length (st : Stream) (a : AppendData) : (appendHead st a).length = 7 := rfl

theorem recordTail_length (st : Stream) (a : AppendData) :
    (recordTail st a).length = st.optionBytes + a.payload.length := by
  unfold recordTail Stream.optionBytes
  split <;> split <;> simp [be32, be16] <;> omega

/-- A record fits its slot: 10 bytes of head, mark and check, the optional fields and the payload (R74). -/
theorem recordTail_length_le {st : Stream} {a : AppendData} (hsize : st.slotSize ∈ [64, 128, 256, 512])
    (hpay : a.payload.length ≤ st.maxPayload) : (recordTail st a).length + 10 ≤ st.slotSize := by
  have hopt : st.optionBytes ≤ 6 := by unfold Stream.optionBytes; split <;> split <;> decide
  have hmin : 64 ≤ st.slotSize := by
    simp only [List.mem_cons, List.not_mem_nil, or_false] at hsize
    omega
  rw [recordTail_length]
  unfold Stream.maxPayload at hpay
  omega

/-- The addresses a record programs, from its slot's first byte on. -/
theorem mem_slotCells_fst {st : Stream} {a : AppendData} {base x : Nat} (h10 : 10 ≤ st.slotSize) :
    x ∈ (slotCells st a base).map Prod.fst ↔
      base ≤ x ∧ x < base + 8 + (recordTail st a).length ∨ base + st.slotSize - 2 ≤ x ∧ x < base + st.slotSize := by
  have hcheck (bs : List Byte) : (checkBytes bs).length = 2 := rfl
  simp only [slotCells_eq, List.map_append, List.mem_append, cellsAt_map_fst, List.mem_range'_1, appendHead_length, hcheck,
    List.length_singleton]
  omega

theorem slotCells_nodup {st : Stream} {a : AppendData} {base : Nat} (hfits : (recordTail st a).length + 10 ≤ st.slotSize) :
    ((slotCells st a base).map Prod.fst).Nodup := by
  have hcheck (bs : List Byte) : (checkBytes bs).length = 2 := rfl
  simp only [slotCells_eq, List.map_append, List.nodup_append, cellsAt_map_fst, List.mem_append, List.mem_range'_1,
    appendHead_length, hcheck, List.length_singleton]
  refine ⟨⟨⟨List.nodup_range', List.nodup_range', ?_⟩, List.nodup_range', ?_⟩, List.nodup_range', ?_⟩ <;> omega

theorem readRange_add (m : List Host.Cell) (a n k : Nat) :
    readRange m a (n + k) = readRange m a n ++ readRange m (a + n) k := by
  simp [readRange, List.range_add, Function.comp_def, Nat.add_assoc]

/-- A run of bytes that was stored reads back. -/
theorem readRange_writeCells {m cells : List Host.Cell} {a : Nat} {bytes : List Byte} (hwf : Memory.wf m = true)
    (hn : (cells.map Prod.fst).Nodup) (hsub : cellsAt a bytes ⊆ cells) :
    readRange (writeCells m cells) a bytes.length = bytes := by
  refine List.ext_getElem? fun i => ?_
  by_cases hi : i < bytes.length
  · rw [readRange_getElem? _ _ _ _ hi]
    have hmem : (a + i, bytes[i]) ∈ cellsAt a bytes := mem_cellsAt.mpr ⟨i, List.getElem?_eq_getElem hi, rfl⟩
    rw [readByte_writeCells_same cells hwf hn (hsub hmem), List.getElem?_eq_getElem hi]
  · rw [List.getElem?_eq_none (by simpa using hi), List.getElem?_eq_none (by simpa using hi)]

/-- A run of erased bytes that no store names stays erased. -/
theorem readRange_writeCells_erased {m cells : List Host.Cell} {a n : Nat}
    (h : ∀ i < n, a + i ∉ cells.map Prod.fst ∧ readByte m (a + i) = erasedByte) :
    readRange (writeCells m cells) a n = List.replicate n erasedByte := by
  refine List.eq_replicate_iff.mpr ⟨readRange_length _ _ _, fun b hb => ?_⟩
  obtain ⟨i, hi, rfl⟩ := List.mem_map.mp hb
  obtain ⟨hnot, herased⟩ := h i (List.mem_range.mp hi)
  rw [readByte_writeCells_other _ _ hnot, herased]

/-- A record's programs leave the image of its slot (R88, R90). -/
theorem readRange_slotCells {m : List Host.Cell} {st : Stream} {a : AppendData} {base : Nat} (hwf : Memory.wf m = true)
    (hfits : (recordTail st a).length + 10 ≤ st.slotSize) (herased : ∀ i < st.slotSize, readByte m (base + i) = 0xFF) :
    readRange (writeCells m (slotCells st a base)) base st.slotSize = slotImage st a := by
  obtain ⟨pad, hpad⟩ : ∃ pad, pad = st.slotSize - 10 - (recordTail st a).length := ⟨_, rfl⟩
  have hsize : st.slotSize = (appendHead st a).length + [commitMark].length + (recordTail st a).length + pad +
      (checkBytes (appendHead st a ++ recordTail st a)).length := by
    show st.slotSize = 7 + 1 + (recordTail st a).length + pad + 2
    omega
  have hstored {x : Nat} {bs : List Byte} (h : cellsAt x bs ⊆ slotCells st a base) :
      readRange (writeCells m (slotCells st a base)) x bs.length = bs :=
    readRange_writeCells hwf (slotCells_nodup hfits) h
  have hpadding : readRange (writeCells m (slotCells st a base)) (base + (7 + 1 + (recordTail st a).length)) pad =
      List.replicate pad erasedByte := by
    refine readRange_writeCells_erased fun i hi => ⟨?_, ?_⟩
    · rw [mem_slotCells_fst (by omega)]; omega
    · rw [Nat.add_assoc]; exact herased _ (by omega)
  conv_lhs => rw [hsize]
  rw [readRange_add, readRange_add, readRange_add, readRange_add, slotImage, ← hpad]
  congr
  · exact hstored (by simp [slotCells_eq])
  · exact hstored (x := base + 7) (by rw [slotCells_eq]; exact List.subset_append_right _ _)
  · exact hstored (x := base + 8) (by simp [slotCells_eq])
  · refine hstored (x := base + _) ?_
    have : base + (7 + 1 + (recordTail st a).length + pad) = base + st.slotSize - 2 := by omega
    rw [show base + ((appendHead st a).length + [commitMark].length + (recordTail st a).length + pad) =
      base + st.slotSize - 2 from this, slotCells_eq]
    exact List.subset_append_of_subset_left _ (List.subset_append_right _ _)

/-- Settles O12: the two programs leave the slot's image, whose fields are read off. -/
theorem recordWrittenReadsBack : Obligations.RecordWrittenReadsBack := by
  intro m st a base hwf hsize hnext hpay htime htemp herased
  have hfits := recordTail_length_le hsize hpay
  have hslot : readRange (writeCells (writeCells m (bodyCells st a base)) (markCell base)) base st.slotSize =
      slotImage st a := by
    rw [← writeCells_append]
    exact readRange_slotCells hwf hfits herased
  dsimp only
  rw [hslot]
  have hlen : ofBe (((slotImage st a).drop 4).take 2) = a.payload.length :=
    ofBe_be16 _ (by rw [recordTail_length] at hfits; simp at hsize; omega)
  have hnumber : ofBe ((slotImage st a).take 4) = st.next := ofBe_be32 _ hnext
  have htail : ((slotImage st a).drop 8).take (st.optionBytes + a.payload.length) = recordTail st a := by
    rw [← recordTail_length]
    show ((recordTail st a ++ _) ++ _).take _ = _
    rw [List.append_assoc, List.take_left]
  have hcheck : (slotImage st a).drop (st.slotSize - 2) = checkBytes (appendHead st a ++ recordTail st a) := by
    refine List.drop_left' ?_
    simp only [List.length_append, appendHead_length, List.length_singleton, List.length_replicate]
    omega
  refine ⟨?_, rfl, rfl, rfl, rfl, htail⟩
  have hhead : (slotImage st a).take 7 = appendHead st a := rfl
  have hflags : (slotImage st a).getD 6 0 = a.flags := rfl
  simp only [recordIntact, hlen, hnumber, htail, hcheck, hhead, hflags, htime, htemp, hpay, decide_true, beq_self_eq_true,
    Bool.and_self]

end Sys2Proof.Machine
end

section
namespace Sys2Proof.Machine

/-! ### Stores into erased bytes add cells and change none -/

/-- An erased store to a byte that reads erased does nothing. -/
theorem writeByte_erased {m : List Host.Cell} (hwf : Memory.wf m = true) {a : Nat} (h : readByte m a = erasedByte) :
    writeByte m a erasedByte = m := by
  induction m with
  | nil => simp [writeByte]
  | cons d m ih =>
    obtain ⟨k, v⟩ := d
    obtain ⟨_, hv, hrest⟩ := (Memory.wf_cons _ _).mp hwf
    have hne : k ≠ a := by
      rintro rfl
      simp [readByte] at h
      exact hv h
    have hread : readByte m a = erasedByte := by simpa [readByte, hne] using h
    simp [writeByte, Ne.symm hne, ih hrest hread]

/-- A store of another byte to a byte that reads erased lists one more cell. -/
theorem writeByte_perm {m : List Host.Cell} (hwf : Memory.wf m = true) {a : Nat} {b : Byte}
    (h : readByte m a = erasedByte) (hb : b ≠ erasedByte) : (writeByte m a b).Perm ((a, b) :: m) := by
  induction m with
  | nil => simp [writeByte, hb]
  | cons d m ih =>
    obtain ⟨k, v⟩ := d
    obtain ⟨_, hv, hrest⟩ := (Memory.wf_cons _ _).mp hwf
    have hne : k ≠ a := by
      rintro rfl
      simp [readByte] at h
      exact hv h
    have hread : readByte m a = erasedByte := by simpa [readByte, hne] using h
    by_cases hlt : a < k
    · simp [writeByte, hlt, hb]
    · simp only [writeByte, hlt, Ne.symm hne, if_false]
      exact ((ih hrest hread).cons _).trans (List.Perm.swap _ _ _)

/-- Stores into erased bytes list the cells stored, less those that store FFh, besides those listed before. -/
theorem writeCells_perm (cells : List Host.Cell) {m : List Host.Cell} (hwf : Memory.wf m = true)
    (hn : (cells.map Prod.fst).Nodup) (h : ∀ c ∈ cells, readByte m c.1 = erasedByte) :
    (writeCells m cells).Perm (cells.filter (fun c => c.2 != erasedByte) ++ m) := by
  induction cells generalizing m with
  | nil => exact .refl _
  | cons c cells ih =>
    obtain ⟨hc, hn'⟩ := List.nodup_cons.mp hn
    have hread : readByte m c.1 = erasedByte := h c List.mem_cons_self
    have hrest : ∀ d ∈ cells, readByte (writeByte m c.1 c.2) d.1 = erasedByte := fun d hd => by
      have hne : d.1 ≠ c.1 := fun heq => hc (heq ▸ List.mem_map_of_mem hd)
      rw [readByte_writeByte_other _ _ hne]
      exact h d (List.mem_cons_of_mem _ hd)
    have hperm : (writeCells m (c :: cells)).Perm (cells.filter (fun c => c.2 != erasedByte) ++ writeByte m c.1 c.2) :=
      ih (writeByte_wf hwf _ _) hn' hrest
    by_cases hb : c.2 = erasedByte
    · rw [List.filter_cons_of_neg (by simp [hb])]
      rw [hb, writeByte_erased hwf hread] at hperm
      exact hperm
    · rw [List.filter_cons_of_pos (by simp [hb])]
      exact (hperm.trans ((writeByte_perm hwf hread hb).append_left _)).trans List.perm_middle

/-! ### Counting the slots of a segment -/

/-- A cell of a segment's slots: in the segment, behind its descriptor page. -/
def inSlots (seg : Nat) (c : Host.Cell) : Prop := inSegment seg c.1 = true ∧ segBase seg + pageSize ≤ c.1

/-- The slot that an address of a segment lies in. -/
def slotIndex (seg slotSize a : Nat) : Nat := (a - segBase seg - pageSize) / slotSize

/-- A cell that is the commit mark of a slot (R88, R90). -/
def isMark (seg slotSize : Nat) (c : Host.Cell) : Bool :=
  inSegment seg c.1 && (decide (segBase seg + pageSize ≤ c.1) &&
    decide ((c.1 - segBase seg - pageSize) % slotSize = markOffset) && c.2 == commitMark)

theorem committedSlots_length (m : List Host.Cell) (seg slotSize : Nat) :
    (committedSlots m seg slotSize).length = m.countP (isMark seg slotSize) := by
  rw [committedSlots, List.length_map, segmentCells, List.filter_filter, List.countP_eq_length_filter]
  refine congrArg List.length (List.filter_congr fun c _ => ?_)
  rw [isMark, Bool.and_comm]

/-- The count of used slots is within a bound when every cell of the slots lies below it. -/
theorem foldl_usedSlots_le (seg slotSize k : Nat) : ∀ (cells : List Host.Cell) (n : Nat),
    cells.foldl (fun acc c => if segBase seg + pageSize ≤ c.1
      then max acc ((c.1 - segBase seg - pageSize) / slotSize + 1) else acc) n ≤ k ↔
      n ≤ k ∧ ∀ c ∈ cells, segBase seg + pageSize ≤ c.1 → slotIndex seg slotSize c.1 < k
  | [], n => by simp
  | c :: cells, n => by
    rw [List.foldl_cons, foldl_usedSlots_le seg slotSize k cells]
    have hstep : (if segBase seg + pageSize ≤ c.1 then max n (slotIndex seg slotSize c.1 + 1) else n) ≤ k ↔
        n ≤ k ∧ (segBase seg + pageSize ≤ c.1 → slotIndex seg slotSize c.1 < k) := by
      split
      · next h => simp [h]
      · next h => simp [h]
    exact (and_congr_left' hstep).trans (by simp [and_assoc])

theorem usedSlots_le_iff (m : List Host.Cell) (seg slotSize k : Nat) :
    usedSlots m seg slotSize ≤ k ↔ ∀ c ∈ m, inSlots seg c → slotIndex seg slotSize c.1 < k := by
  rw [usedSlots, foldl_usedSlots_le]
  simp [segmentCells, inSlots]

/-! ### The addresses of a slot -/

theorem slotsPerSegment_mul {size : Nat} (h : size ∈ [64, 128, 256, 512]) :
    slotsPerSegment size * size = segmentSize - pageSize := by
  simp only [List.mem_cons, List.not_mem_nil, or_false] at h
  rcases h with rfl | rfl | rfl | rfl <;> rfl

theorem slotOffset_eq (seg size slot i : Nat) :
    slotBase seg size slot + i - segBase seg - pageSize = i + size * slot := by
  rw [slotBase, Nat.mul_comm]; omega

theorem slotIndex_slotBase {seg size slot i : Nat} (hi : i < size) :
    slotIndex seg size (slotBase seg size slot + i) = slot := by
  rw [slotIndex, slotOffset_eq, Nat.add_mul_div_left _ _ (by omega), Nat.div_eq_of_lt hi, Nat.zero_add]

/-- An address of a slot is one of its segment, behind the descriptor page (R46). -/
theorem slotBase_bounds {seg size slot i : Nat} (hsize : size ∈ [64, 128, 256, 512]) (hslot : slot < slotsPerSegment size)
    (hi : i < size) : segBase seg + pageSize ≤ slotBase seg size slot + i ∧ inSegment seg (slotBase seg size slot + i) = true := by
  have hend : (slot + 1) * size ≤ slotsPerSegment size * size := Nat.mul_le_mul_right _ hslot
  rw [slotsPerSegment_mul hsize, Nat.succ_mul] at hend
  rw [inSegment, slotBase, Bool.and_eq_true, decide_eq_true_iff, decide_eq_true_iff]
  simp only [segmentSize, pageSize] at hend ⊢
  omega

/-- A slot from the count of used slots on reads erased (R76). -/
theorem readByte_unusedSlot {m : List Host.Cell} {seg size slot i : Nat} (hsize : size ∈ [64, 128, 256, 512])
    (hslot : slot < slotsPerSegment size) (hused : usedSlots m seg size ≤ slot) (hi : i < size) :
    readByte m (slotBase seg size slot + i) = erasedByte := by
  refine readByte_of_not_mem fun c hc heq => ?_
  obtain ⟨hpage, hin⟩ := slotBase_bounds (seg := seg) hsize hslot hi
  have hlt := (usedSlots_le_iff m seg size slot).mp hused c hc ⟨by rw [heq]; exact hin, by rw [heq]; exact hpage⟩
  rw [heq, slotIndex_slotBase hi] at hlt
  exact lt_irrefl _ hlt

/-- A cell a record programs stands at an offset of its slot. -/
theorem exists_offset_of_mem_slotCells {st : Stream} {a : AppendData} {base : Nat} {c : Host.Cell}
    (hfits : (recordTail st a).length + 10 ≤ st.slotSize) (hc : c ∈ slotCells st a base) : ∃ i < st.slotSize, c.1 = base + i := by
  have hx := (mem_slotCells_fst (by omega)).mp (List.mem_map_of_mem hc)
  exact ⟨c.1 - base, by omega, by omega⟩

theorem markCell_mem_slotCells (st : Stream) (a : AppendData) (base : Nat) :
    (base + markOffset, commitMark) ∈ slotCells st a base := List.mem_append_right _ List.mem_cons_self

/-- Of the cells that a record programs one is a commit mark: the last. -/
theorem countP_isMark_slotCells {st : Stream} {a : AppendData} {seg slot : Nat} (hsize : st.slotSize ∈ [64, 128, 256, 512])
    (hslot : slot < slotsPerSegment st.slotSize) (hfits : (recordTail st a).length + 10 ≤ st.slotSize) :
    ((slotCells st a (slotBase seg st.slotSize slot)).filter (fun c => c.2 != erasedByte)).countP (isMark seg st.slotSize) = 1 := by
  obtain ⟨base, hbase⟩ : ∃ base, base = slotBase seg st.slotSize slot := ⟨_, rfl⟩
  have hmark : isMark seg st.slotSize (base + markOffset, commitMark) = true := by
    obtain ⟨hpage, hin⟩ := slotBase_bounds (seg := seg) hsize hslot (i := markOffset) (by rw [markOffset]; omega)
    have hmod : (base + markOffset - segBase seg - pageSize) % st.slotSize = markOffset := by
      rw [hbase, slotOffset_eq, Nat.add_mul_mod_self_left, Nat.mod_eq_of_lt (by rw [markOffset]; omega)]
    simp [isMark, hmod, hbase ▸ hin, hbase ▸ hpage]
  have hbody : ((bodyCells st a base).filter (fun c => c.2 != erasedByte)).countP (isMark seg st.slotSize) = 0 := by
    refine List.countP_eq_zero.mpr fun c hc hm => ?_
    have hc := List.mem_of_mem_filter hc
    obtain ⟨i, hi, heq⟩ := exists_offset_of_mem_slotCells hfits (List.mem_append_left _ hc)
    have hmod : (c.1 - segBase seg - pageSize) % st.slotSize = markOffset := by
      simp only [isMark, Bool.and_eq_true, decide_eq_true_eq] at hm
      exact hm.2.1.2
    rw [heq, hbase, slotOffset_eq, Nat.add_mul_mod_self_left, Nat.mod_eq_of_lt hi] at hmod
    have hnodup : ((bodyCells st a base ++ markCell base).map Prod.fst).Nodup := slotCells_nodup hfits
    rw [List.map_append, List.nodup_append] at hnodup
    exact hnodup.2.2 c.1 (List.mem_map_of_mem hc) (base + markOffset) (by simp [markCell]) (by rw [heq, hmod])
  rw [← hbase, slotCells, List.filter_append, List.countP_append, hbody]
  have hkeep : (markCell base).filter (fun c => c.2 != erasedByte) = [(base + markOffset, commitMark)] := rfl
  rw [hkeep]
  simp [hmark]

/-- A record written at the write position adds one committed slot and one used slot (R76, R90). -/
theorem recordWritten_counts {m : List Host.Cell} {st : Stream} {a : AppendData} {seg slot : Nat} (hwf : Memory.wf m = true)
    (hsize : st.slotSize ∈ [64, 128, 256, 512]) (hslot : slot < slotsPerSegment st.slotSize)
    (hfits : (recordTail st a).length + 10 ≤ st.slotSize) (hused : usedSlots m seg st.slotSize = slot) :
    let m' := writeCells m (slotCells st a (slotBase seg st.slotSize slot))
    (committedSlots m' seg st.slotSize).length = (committedSlots m seg st.slotSize).length + 1 ∧
      usedSlots m' seg st.slotSize = slot + 1 := by
  intro m'
  have hoffset {c : Host.Cell} (hc : c ∈ slotCells st a (slotBase seg st.slotSize slot)) :
      ∃ i < st.slotSize, c.1 = slotBase seg st.slotSize slot + i := exists_offset_of_mem_slotCells hfits hc
  have hperm : m'.Perm _ := writeCells_perm _ hwf (slotCells_nodup hfits) fun c hc => by
    obtain ⟨i, hi, heq⟩ := hoffset hc
    rw [heq]
    exact readByte_unusedSlot hsize hslot hused.le hi
  constructor
  · rw [committedSlots_length, committedSlots_length, hperm.countP_eq, List.countP_append,
      countP_isMark_slotCells hsize hslot hfits, Nat.add_comm]
  · refine Nat.le_antisymm ((usedSlots_le_iff _ _ _ _).mpr fun c hc hin => ?_) ?_
    · rcases List.mem_append.mp (hperm.mem_iff.mp hc) with hc | hc
      · obtain ⟨i, hi, heq⟩ := hoffset (List.mem_of_mem_filter hc)
        rw [heq, slotIndex_slotBase hi]
        exact Nat.lt_succ_self _
      · exact Nat.lt_succ_of_lt ((usedSlots_le_iff m seg st.slotSize slot).mp hused.le c hc hin)
    · have hmem : (slotBase seg st.slotSize slot + markOffset, commitMark) ∈ m' :=
        hperm.mem_iff.mpr (List.mem_append_left _ (List.mem_filter.mpr ⟨markCell_mem_slotCells _ _ _, rfl⟩))
      have hoff : markOffset < st.slotSize := by rw [markOffset]; omega
      obtain ⟨hpage, hin⟩ := slotBase_bounds (seg := seg) hsize hslot hoff
      have hlt := (usedSlots_le_iff m' seg st.slotSize _).mp (Nat.le_refl _) _ hmem ⟨hin, hpage⟩
      rw [slotIndex_slotBase hoff] at hlt
      exact hlt

theorem recoverStream_of_newest {flash : List Host.Cell} {st : Stream} {l : SegLink} (hstate : st.state ≠ .absent)
    (hnewest : st.newest = some l) : recoverStream flash st =
      { st with
        next := l.firstSeq + (committedSlots flash l.seg st.slotSize).length
        writePos := usedSlots flash l.seg st.slotSize
        closed := false
        cursor := st.oldest } := by
  rw [recoverStream, if_neg hstate, hnewest]

/-- Settles O13: before and after, the mount counts commit marks and used slots of the newest segment. -/
theorem committedRecordSurvivesMount : Obligations.CommittedRecordSurvivesMount := by
  intro m st l a hwf hstate hnewest hsize hpay hbefore hroom
  rw [recoverStream_of_newest hstate hnewest] at hbefore
  injection hbefore with _ _ _ _ _ _ _ _ _ hnext _ _ hused hclosed _ _
  obtain ⟨hcommitted, hslots⟩ := recordWritten_counts hwf hsize hroom (recordTail_length_le hsize hpay) hused
  dsimp only
  rw [recoverStream_of_newest hstate hnewest, ← writeCells_append]
  change { st with
    next := l.firstSeq + (committedSlots (writeCells m (slotCells st a _)) l.seg st.slotSize).length
    writePos := usedSlots (writeCells m (slotCells st a _)) l.seg st.slotSize
    closed := false
    cursor := st.oldest } = _
  rw [hcommitted, hslots, ← Nat.add_assoc, hnext, ← hclosed]

end Sys2Proof.Machine
end

section
namespace Sys2Proof.Machine

/-! ### Reports of committed state -/

/-- A folded choice between two elements is the first or one of the list. -/
theorem foldl_choice_mem {f : Nat → Nat → Nat} (hf : ∀ a b, f a b = a ∨ f a b = b) :
    ∀ (l : List Nat) (a : Nat), l.foldl f a ∈ a :: l
  | [], a => List.mem_cons_self
  | b :: l, a => by
    rw [List.foldl_cons]
    rcases List.mem_cons.mp (foldl_choice_mem hf l (f a b)) with h | h
    · rw [h]
      rcases hf a b with hab | hab <;> simp [hab]
    · exact List.mem_cons_of_mem _ (List.mem_cons_of_mem _ h)

theorem foldl_min_le {l : List Nat} {a x : Nat} (h : x ∈ a :: l) : l.foldl min a ≤ x := by
  induction l generalizing a x with
  | nil => simp_all
  | cons b l ih =>
    rw [List.foldl_cons]
    rcases List.mem_cons.mp h with rfl | h
    · exact (ih List.mem_cons_self).trans (min_le_left x b)
    · rcases List.mem_cons.mp h with rfl | h
      · exact (ih List.mem_cons_self).trans (min_le_right a x)
      · exact ih (List.mem_cons_of_mem _ h)

/-- The lowest of some counts is one of them and below every one. -/
theorem lowestCount_spec {l : List Nat} (h : l ≠ []) : lowestCount l ∈ l ∧ ∀ x ∈ l, lowestCount l ≤ x := by
  cases l with
  | nil => exact absurd rfl h
  | cons x l => exact ⟨foldl_choice_mem min_choice l x, fun y hy => foldl_min_le hy⟩

/-- The highest of some counts is one of them and above every one. -/
theorem highestCount_spec {l : List Nat} (h : l ≠ []) : highestCount l ∈ l ∧ ∀ x ∈ l, x ≤ highestCount l := by
  cases l with
  | nil => exact absurd rfl h
  | cons x l => exact ⟨foldl_max_mem l x, fun y hy => le_foldl_max hy⟩

/-- The erase counts reported are those of the data segments that are not RETIRED (R67). -/
theorem Tables.mem_liveEraseCounts {t : Tables} {n : Nat} :
    n ∈ t.liveEraseCounts ↔ ∃ e ∈ t.segs.drop 4, e.state ≠ .retired ∧ e.eraseCount = n := by
  simp [Tables.liveEraseCounts, firstData, and_assoc]

theorem Tables.liveEraseCounts_eq_nil {t : Tables} :
    t.liveEraseCounts = [] ↔ ∀ e ∈ t.segs.drop 4, e.state = .retired := by
  simp [Tables.liveEraseCounts, firstData]

theorem FuseCopies.guardFixed_iff (f : FuseCopies) : f.guardFixed = true ↔ f.guardA = .blown ∨ f.guardB = .blown := by
  simp [FuseCopies.guardFixed]

theorem flagByte_not (b : Bool) : flagByte (!b) = if b then 0x00 else 0x01 := by cases b <;> rfl

/-- The fixed guard mode of GET_SETTINGS (R157). -/
theorem settingsReply_eq (c : Committed) : settingsReply c =
    be16 (if c.fuse.guardA = .blown ∨ c.fuse.guardB = .blown then 2 else c.tables.settings.guardMode.toNat) ++
      be16 c.tables.settings.sensorSource.toNat ++ be16 c.tables.settings.sensorAddress.toNat ++
      be16 c.tables.settings.sensorPointer.toNat ++ be16 c.tables.settings.sensorFormat.toNat ++
      be16 c.tables.settings.refreshInterval.toNat ++ be16 c.tables.settings.tickPeriod.toNat ++
      be16 c.tables.settings.alertMask.toNat ++ be16 c.tables.settings.poolLowThreshold.toNat := by
  have hmode : (if c.fuse.guardFixed = true then 2 else c.tables.settings.guardMode.toNat) =
      if c.fuse.guardA = .blown ∨ c.fuse.guardB = .blown then 2 else c.tables.settings.guardMode.toNat := by
    simp only [FuseCopies.guardFixed_iff]
  rw [settingsReply, hmode]
  rfl

/-- Settles O37: each reply is a report of committed state, written out. -/
theorem reportsReadCommittedState : Obligations.ReportsReadCommittedState := by
  refine ⟨fun s tag hacc => ?identity, fun s tag hacc => ⟨?settings, ?pool, ?profiles⟩⟩
  case identity =>
    have htakes : TakesImmediate s tag .getIdentity := AcceptsAlsoFaulted.takesImmediate hacc rfl rfl
    refine ⟨_, rfl, htakes.answers (by decide) (Nat.zero_le _) (env := s.noInputs) (w := s) ?_ rfl⟩
    show (_, Status.ok, identityReply s.committed.fuse) = _
    rw [identityReply, flagByte_not]
    rfl
  case settings =>
    refine ⟨_, rfl, (hacc.takesImmediate rfl).answers (by decide) (Nat.zero_le _) (env := s.noInputs) (w := s) ?_ rfl⟩
    show (_, Status.ok, settingsReply s.committed) = _
    rw [settingsReply_eq]
    rfl
  case pool =>
    obtain ⟨hanswered, hbecomes⟩ := (hacc.takesImmediate (k := .poolInfo) rfl).answers (by decide) (Nat.zero_le _)
      (params := []) (env := s.noInputs) (w := s) (st := .ok) (payload := poolReply s.committed) rfl rfl
    refine ⟨_, rfl, ⟨_, _, hanswered, fun e he hlive => ?_, fun hretired => ?_, fun ⟨e, he, hlive⟩ => ?_⟩, hbecomes⟩
    all_goals generalize hcounts : s.committed.tables.liveEraseCounts = counts
    · have hmem : e.eraseCount ∈ counts := hcounts ▸ Tables.mem_liveEraseCounts.mpr ⟨e, he, hlive, rfl⟩
      have hne := List.ne_nil_of_mem hmem
      exact ⟨(lowestCount_spec hne).2 _ hmem, (highestCount_spec hne).2 _ hmem⟩
    · rw [← hcounts, Tables.liveEraseCounts_eq_nil.mpr hretired]
      exact ⟨rfl, rfl⟩
    · have hmem : e.eraseCount ∈ counts := hcounts ▸ Tables.mem_liveEraseCounts.mpr ⟨e, he, hlive, rfl⟩
      have hne := List.ne_nil_of_mem hmem
      exact ⟨Tables.mem_liveEraseCounts.mp (hcounts ▸ (lowestCount_spec hne).1),
        Tables.mem_liveEraseCounts.mp (hcounts ▸ (highestCount_spec hne).1)⟩
  case profiles =>
    exact ⟨_, rfl, (hacc.takesImmediate rfl).answers (by decide) (Nat.zero_le _) (env := s.noInputs) (w := s) rfl rfl⟩

/-! ### STREAM_INFO -/

theorem Stream.optionsByte_eq (st : Stream) :
    st.optionsByte = (if st.timeOption then 0x01 else 0x00) ||| (if st.tempOption then 0x02 else 0x00) := by
  unfold Stream.optionsByte
  cases st.timeOption <;> cases st.tempOption <;> rfl

theorem segmentField_eq (l : Option SegLink) : segmentField l = be16 ((l.map SegLink.seg).getD 0xFFFF) := by
  cases l <;> rfl

theorem Stream.maxPayload_eq (st : Stream) :
    st.maxPayload = st.slotSize - 10 - (if st.timeOption then 4 else 0) - (if st.tempOption then 2 else 0) :=
  Nat.sub_add_eq _ _ _

theorem byteOf_toNat (b : Byte) : byteOf b.toNat = b := by simp [byteOf]

theorem StreamState.code_of_ne_absent {x : StreamState} (h : x ≠ .absent) :
    x.code = if x = .opened then 0x01 else 0x02 := by
  cases x <;> first | rfl | exact absurd rfl h

theorem Retention.code_eq (x : Retention) : x.code = if x = .wrap then 0x00 else 0x01 := by cases x <;> rfl

/-- The summary of one stream (R87). -/
theorem summaryEntry_eq (t : Tables) (n : Nat) : summaryEntry t n =
    if (t.stream n).state = .absent then byteOf n :: List.replicate 9 0x00
    else [byteOf n, if (t.stream n).state = .opened then 0x01 else 0x02,
      if (t.stream n).retention = .wrap then 0x00 else 0x01, if (t.stream n).hold then 0x01 else 0x00] ++
      be32 ((t.stream n).next - (t.stream n).oldest) ++ be16 (t.stream n).segs.length := by
  rw [summaryEntry]
  split
  · rfl
  · next hstate => rw [StreamState.code_of_ne_absent hstate, Retention.code_eq]; rfl

/-- Settles O38: the replies are those of the stream table, field by field. -/
theorem streamInfoReportsStreams : Obligations.StreamInfoReportsStreams := by
  intro s tag id hacc
  have htakes : TakesImmediate s tag .streamInfo := hacc.takesImmediate rfl
  refine ⟨fun hid => ?one, ?all⟩
  case one =>
    refine ⟨_, rfl, htakes.answers (by decide) (params := [id]) (show 1 ≤ 520 by decide) (env := s.noInputs) (w := s) ?_ rfl⟩
    have hparse : parseStreamInfo [id] = some (.one id.toNat) := by
      have hne : id ≠ 0xFF := by rintro rfl; exact absurd hid (by decide)
      rw [parseStreamInfo, if_neg hne, parseId, if_pos (show id.toNat < streamCount from hid)]
      rfl
    show (s.opened.takeIn .streamInfo).answerStreamInfo [id] = _
    rw [State.answerStreamInfo, hparse]
    refine congrArg (fun payload => (s.opened.takeIn .streamInfo, Status.ok, payload)) ?_
    show streamReply s.committed.tables id.toNat = _
    rw [streamReply, byteOf_toNat]
    split
    · rfl
    · next hstate =>
      rw [StreamState.code_of_ne_absent hstate, Retention.code_eq, Stream.optionsByte_eq, Stream.maxPayload_eq,
        Tables.freeSlots_eq, segmentField_eq, segmentField_eq]
      rfl
  case all =>
    refine ⟨_, rfl, htakes.answers (by decide) (params := [0xFF]) (show 1 ≤ 520 by decide) (env := s.noInputs) (w := s) ?_ rfl⟩
    have hentries := funext (summaryEntry_eq s.committed.tables)
    show (_, Status.ok, (List.range 16).flatMap (summaryEntry s.committed.tables)) = _
    rw [hentries]
    rfl

end Sys2Proof.Machine
end

section
namespace Sys2Proof.Machine

/-! ### Events and alarms -/

theorem parseReadEvents_of {n : Byte} (hlow : 1 ≤ n.toNat) (hhigh : n.toNat ≤ 8) :
    parseReadEvents [n] = some n.toNat := if_pos ⟨hlow, hhigh⟩

theorem parseReleaseEvents_flag (n : Byte) (clear : Bool) :
    parseReleaseEvents [n, if clear then 0x01 else 0x00] = some (n.toNat, clear) := by cases clear <;> rfl

/-- What RELEASE_EVENTS leaves and answers (R183). -/
theorem State.answerReleaseEvents_flag (s : State) (n : Byte) (clear : Bool) :
    s.answerReleaseEvents [n, if clear then 0x01 else 0x00] =
      ({ s with events := s.events.drop n.toNat, overflow := if clear then 0 else s.overflow }, .ok,
        [byteOf (min n.toNat s.events.length), byteOf (s.events.length - n.toNat), if clear then 0 else s.overflow]) := by
  have hreleased : s.events.length - (s.events.length - n.toNat) = min n.toNat s.events.length := by omega
  rw [State.answerReleaseEvents, parseReleaseEvents_flag]
  simp only [List.length_drop, hreleased]

/-- The alarms that CLEAR_ALARMS leaves (R179). -/
def State.alarmsAfterClear (s : State) (mask : BitVec 6) : BitVec 6 :=
  if s.dev = .running ∧ s.committed.tables.usableCount = 1 then (s.alarms &&& ~~~mask) ||| alarmCatalogueDegraded
  else s.alarms &&& ~~~mask

theorem alarmCatalogueDegraded_getLsbD {i : Nat} (hi : i < 6) : alarmCatalogueDegraded.getLsbD i = decide (i = 4) := by
  revert i; decide

theorem State.alarmsAfterClear_getLsbD (s : State) (m : Byte) {i : Nat} (hi : i < 6) :
    (s.alarmsAfterClear (m.truncate 6)).getLsbD i = ((s.alarms.getLsbD i && !m.getLsbD i) ||
      decide (i = 4 ∧ s.dev = .running ∧ s.committed.tables.usable.countP (· == true) = 1)) := by
  have hcleared : (s.alarms &&& ~~~(m.truncate 6)).getLsbD i = (s.alarms.getLsbD i && !m.getLsbD i) := by
    simp [hi]
  unfold State.alarmsAfterClear
  split
  · next h =>
    have hlatched : (i = 4 ∧ s.dev = .running ∧ s.committed.tables.usable.countP (· == true) = 1) ↔ i = 4 := and_iff_left h
    rw [BitVec.getLsbD_or, hcleared, alarmCatalogueDegraded_getLsbD hi, decide_eq_decide.mpr hlatched]
  · next h =>
    have hnot : ¬ (i = 4 ∧ s.dev = .running ∧ s.committed.tables.usable.countP (· == true) = 1) := fun hh => h hh.2
    rw [hcleared, decide_eq_false hnot, Bool.or_false]

theorem parseClearAlarms_of {m : Byte} (h : m.toNat < 64) : parseClearAlarms [m] = some (m.truncate 6) := if_pos h

/-- Settles O39: each reply by its answer; what it leaves is read off that answer. -/
theorem eventAndAlarmRequests : Obligations.EventAndAlarmRequests := by
  refine ⟨fun s tag n hacc => ⟨fun hlow hhigh => ?read, fun clear => ?release⟩, fun s tag m hacc hmask => ?clear⟩
  case read =>
    have htakes : TakesImmediate s tag .readEvents := AcceptsAlsoFaulted.takesImmediate hacc rfl rfl
    refine ⟨_, rfl, htakes.answers (by decide) (params := [n]) (show 1 ≤ 520 by decide) (env := s.noInputs) (w := s) ?_ rfl⟩
    show (s.opened.takeIn .readEvents).answerReadEvents [n] = _
    rw [State.answerReadEvents, parseReadEvents_of hlow hhigh]
    rfl
  case release =>
    have htakes : TakesImmediate s tag .releaseEvents := AcceptsAlsoFaulted.takesImmediate hacc rfl rfl
    obtain ⟨hanswered, hbecomes⟩ := htakes.answers (by decide) (params := [n, if clear then 0x01 else 0x00])
      (show 2 ≤ 520 by decide) (env := s.noInputs)
      (w := { s with events := s.events.drop n.toNat, overflow := if clear then 0 else s.overflow })
      ((s.opened.takeIn .releaseEvents).answerReleaseEvents_flag n clear) rfl
    refine ⟨_, rfl, ?_⟩
    have hevents := congrArg State.events hbecomes.1
    have hoverflow := congrArg State.overflow hbecomes.1
    refine ⟨hevents, hoverflow, ?_, ?_⟩
    · rw [hoverflow]; exact hanswered
    · rw [hevents, hoverflow]; exact hbecomes
  case clear =>
    have htakes : TakesImmediate s tag .clearAlarms := AcceptsAlsoFaulted.takesImmediate hacc rfl rfl
    obtain ⟨hanswered, hbecomes⟩ := htakes.answers (by decide) (params := [m]) (show 1 ≤ 520 by decide) (env := s.noInputs)
      (w := { s with alarms := s.alarmsAfterClear (m.truncate 6) }) (st := .ok)
      (payload := [s.alarms.zeroExtend 8, (s.alarmsAfterClear (m.truncate 6)).zeroExtend 8])
      (by
        show (s.opened.takeIn .clearAlarms).answerClearAlarms [m] = _
        rw [State.answerClearAlarms, parseClearAlarms_of hmask]
        rfl) rfl
    refine ⟨_, rfl, ?_⟩
    have halarms := congrArg State.alarms hbecomes.1
    rw [halarms]
    exact ⟨fun i hi => s.alarmsAfterClear_getLsbD m hi, hanswered, hbecomes⟩

/-! ### SET_TIME -/

/-- The link opened for a request whose inputs were looked at first. -/
theorem LinkIdle.takesImmediate_observe {s : State} {tag : Byte} {k : Kind} (h : TakesImmediate s tag k) (env : Env) :
    TakesImmediate (s.observe env) tag k := by
  rw [h.link.observe_eq]
  exact ⟨h.immediate, h.link, h.free, h.intake⟩

theorem parseSetTime_eq (a b c d : Byte) : parseSetTime [a, b, c, d] = some (a ++ b ++ c ++ d) := by
  rw [parseSetTime, ofBe4, BitVec.ofNat_toNat, BitVec.setWidth_eq]

/-- Settles O42: an engaged guard makes it decline, else the counter is loaded. -/
theorem setTimeLoadsCounter : Obligations.SetTimeLoadsCounter := by
  intro s tag a b c d env hacc
  have htakes : TakesImmediate { s with guardHigh := env.guardHigh } tag .setTime := by
    have h := LinkIdle.takesImmediate_observe (hacc.takesImmediate (k := .setTime) rfl) env
    rwa [hacc.linkIdle.observe_eq] at h
  have hexec : exec (.setTime tag [a, b, c, d] env) s =
      .next (State.doImmediate { s with guardHigh := env.guardHigh } .setTime tag [a, b, c, d] env).settle := by
    rw [← hacc.linkIdle.observe_eq]; rfl
  refine ⟨_, hexec, ?_⟩
  by_cases hguard : s.committed.guardEngaged env.guardHigh = true
  · obtain ⟨hanswered, hbecomes⟩ := htakes.declines (by decide) (params := [a, b, c, d]) (show 4 ≤ 520 by decide) (env := env)
      (st := .guarded) (by
        show (State.takeIn _ _).answerSetTime [a, b, c, d] env.guardHigh = _
        rw [State.answerSetTime, parseSetTime_eq]
        exact if_pos hguard)
    have htick := congrArg State.tick hbecomes.1
    have hunset := congrArg State.timeUnset hbecomes.1
    refine ⟨fun h => ?_, fun _ => ⟨htick, hunset, hanswered⟩, ?_⟩
    · rw [hguard] at h; exact absurd h (by decide)
    · rw [htick, hunset]; exact hbecomes
  · obtain ⟨hanswered, hbecomes⟩ := htakes.answers (by decide) (params := [a, b, c, d]) (show 4 ≤ 520 by decide) (env := env)
      (w := { s with tick := a ++ b ++ c ++ d, timeUnset := false, guardHigh := env.guardHigh }) (st := .ok)
      (payload := be32 s.tick.toNat ++ [flagByte s.timeUnset]) (by
        show (State.takeIn _ _).answerSetTime [a, b, c, d] env.guardHigh = _
        rw [State.answerSetTime, parseSetTime_eq]
        exact if_neg hguard) rfl
    have htick := congrArg State.tick hbecomes.1
    have hunset := congrArg State.timeUnset hbecomes.1
    refine ⟨fun _ => ⟨htick, hunset, hanswered⟩, fun h => absurd h hguard, ?_⟩
    rw [htick, hunset]; exact hbecomes

/-! ### ARM -/

/-- A target kind and an id that ARM takes (R140). -/
def ArmTakes (k id : Byte) : Prop := k = 0x33 ∧ id.toNat < 16 ∨ k ∈ [0x37, 0x3A, 0x3B, 0x3C]

/-- The pair that ARM latches is that of its target kind and its id, 00h but for DELETE_STREAM (R140). -/
theorem parseArm_of_takes {k id : Byte} (h : ArmTakes k id) :
    ∃ p, parseArm [k, id] = some p ∧ p.kind.code = k ∧ p.id = if k = 0x33 then id else 0x00 := by
  rcases h with ⟨rfl, hid⟩ | h
  · exact ⟨⟨.deleteStream, id⟩, if_pos hid, rfl, rfl⟩
  · simp only [List.mem_cons, List.not_mem_nil, or_false] at h
    rcases h with rfl | rfl | rfl | rfl
    · exact ⟨⟨.format, 0x00⟩, rfl, rfl, rfl⟩
    · exact ⟨⟨.commitProfiles, 0x00⟩, rfl, rfl, rfl⟩
    · exact ⟨⟨.setOwnerLabel, 0x00⟩, rfl, rfl, rfl⟩
    · exact ⟨⟨.fixGuard, 0x00⟩, rfl, rfl, rfl⟩

theorem armTarget_of_notTaken : ∀ k : Byte, k ≠ 0x33 → k ∉ [0x37, 0x3A, 0x3B, 0x3C] → armTarget k = none := by
  decide +kernel

theorem parseArm_of_not_takes {params : List Byte} (h : ¬ ∃ k id, params = [k, id] ∧ ArmTakes k id) :
    parseArm params = none := by
  match params with
  | [] | [_] | _ :: _ :: _ :: _ => rfl
  | [k, id] =>
    have hk : ¬ ArmTakes k id := fun htakes => h ⟨k, id, rfl, htakes⟩
    simp only [ArmTakes, not_or, not_and] at hk
    obtain ⟨hdelete, hother⟩ := hk
    by_cases h33 : k = 0x33
    · subst h33
      exact if_neg (hdelete rfl)
    · rw [parseArm, armTarget_of_notTaken k h33 hother]

/-- Settles O43: a field that ARM takes latches its pair, and any other declines, the latch standing. -/
theorem armSetsLatch : Obligations.ArmSetsLatch := by
  intro s tag params hl hacc
  have htakes : TakesImmediate s tag .arm := AcceptsAlsoFaulted.takesImmediate hacc rfl rfl
  obtain ⟨i, -, hlow, -, heq⟩ := htakes.doImmediate_eq params s.noInputs hl
  have hrequest : s.newRequest .arm tag params = ⟨tag, .arm, params, false, s.nextAcceptance⟩ := by
    rw [State.newRequest, armMatches_of_immediate _ htakes.immediate]
  have hfree (c : Context) (hc : c.isFree = false) : Sdo.drive [0xFF, 0x00, byteOf (freeCount (s.contexts.set i c))] 0xFF =
      .drive [0xFF, 0x00, byteOf (freeCount s.contexts - 1)] 0xFF :=
    congrArg (fun n => Sdo.drive [0xFF, 0x00, byteOf n] 0xFF) (freeCount_set hlow.1 hc)
  have hanswer : (s.opened.takeIn .arm).answer .arm params s.noInputs = (s.opened.takeIn .arm).answerArm params := rfl
  refine ⟨(s.doImmediate .arm tag params s.noInputs).settle, i, rfl, ?_⟩
  rw [heq, hrequest, hanswer, State.answerArm]
  by_cases h : ∃ k id, params = [k, id] ∧ ArmTakes k id
  · obtain ⟨k, id, rfl, htaken⟩ := h
    obtain ⟨p, hparse, hkind, hid⟩ := parseArm_of_takes htaken
    rw [hparse]
    refine ⟨⟨rfl, rfl, rfl, hfree _ rfl⟩, hlow, rfl, rfl, ?_, rfl, fun _ => rfl⟩
    rw [if_pos ⟨k, id, rfl, htaken⟩]
    refine ⟨p, k, id, rfl, rfl, hkind, hid, ?_⟩
    rw [← hkind]
    rfl
  · rw [parseArm_of_not_takes h]
    refine ⟨⟨rfl, rfl, rfl, hfree _ rfl⟩, hlow, rfl, rfl, ?_, rfl, fun _ => rfl⟩
    rw [if_neg (by simpa only [ArmTakes] using h)]
    exact ⟨rfl, rfl⟩

/-! ### BAD_PARAM -/

/-- The row of an immediate kind answers for that kind; SET_TIME looks at GUARD# first. -/
theorem Kind.exec_command_immediate {k : Kind} (hk : k.isMedia = false) (tag : Byte) (params : List Byte) (env : Env) (s : State) :
    ∃ e u, (u = s ∨ u = s.observe env) ∧ exec (k.command tag params env) s = .next (u.doImmediate k tag params e).settle := by
  cases k
  case setTime => exact ⟨env, _, .inr rfl, rfl⟩
  case getIdentity | getSettings | streamInfo | poolInfo | readProfiles | readEvents | releaseEvents | clearAlarms | linkStats
    | getTime | arm | abort => exact ⟨s.noInputs, s, .inl rfl, rfl⟩
  all_goals exact absurd hk (by decide)

/-- Settles O45: a malformed field makes every kind decline. -/
theorem immediateBadParamChangesNothing : Obligations.ImmediateBadParamChangesNothing := by
  intro s tag params env k hmedia harm hacc hl hbad
  have htakes : TakesImmediate s tag k := by
    rcases hacc with hacc | ⟨hacc, hk⟩
    · exact hacc.takesImmediate hmedia
    · refine hacc.takesImmediate hmedia ?_
      simp only [List.mem_cons, List.not_mem_nil, or_false] at hk
      rcases hk with rfl | rfl | rfl | rfl | rfl | rfl <;> rfl
  obtain ⟨e, u, hu, hexec⟩ := k.exec_command_immediate hmedia tag params env s
  refine ⟨_, hexec, ?_⟩
  rcases hu with rfl | rfl
  · exact htakes.declines harm hl (State.answer_malformed _ hmedia e hbad)
  · have hobserved := LinkIdle.takesImmediate_observe htakes env
    rw [htakes.link.observe_eq] at hobserved ⊢
    exact hobserved.declines harm hl (State.answer_malformed _ hmedia e hbad)

end Sys2Proof.Machine
end

section
namespace Sys2Proof.Machine

/-! ### ABORT -/

/-- An ABORT of this form ends the context (R43). -/
def aborts (form : AbortForm) (c : Context) : Bool := (abortMatch form c).isSome

/-- What an ABORT of this form ends among some contexts: each that it matches is DONE and ABORTED, with a number of the `n`
from `k` on, in acceptance order, and every other stands (R43, R44). -/
structure AbortedFrom (form : AbortForm) (k n : Nat) (cs cs' : List Context) : Prop where
  kept : ∀ (j : Nat) (c : Context), cs[j]? = some c → aborts form c = false → cs'[j]? = some c
  ended : ∀ (j : Nat) (r : Request), cs[j]? = some (.held r .queued) → aborts form (.held r .queued) = true →
    ∃ m, cs'[j]? = some (.held r (.done m .aborted [])) ∧ k ≤ m ∧ m < k + n
  ordered : ∀ (j l : Nat) (r q : Request) (m p : Nat), cs[j]? = some (.held r .queued) → cs[l]? = some (.held q .queued) →
    cs'[j]? = some (.held r (.done m .aborted [])) → cs'[l]? = some (.held q (.done p .aborted [])) →
    r.acceptance < q.acceptance → m < p
  free : freeCount cs' = freeCount cs

/-- What an ABORT matches is QUEUED, and its number is the acceptance number (R43). -/
theorem abortMatch_eq_some {form : AbortForm} {c : Context} {n : Nat} (h : abortMatch form c = some n) :
    ∃ r, c = .held r .queued ∧ r.acceptance = n := by
  unfold abortMatch at h
  split at h
  · next r => exact ⟨r, rfl, Option.some.inj h⟩
  · next r =>
    split at h
    · exact ⟨r, rfl, Option.some.inj h⟩
    · exact absurd h (by simp)
  · exact absurd h (by simp)

theorem abortMatch_queued {form : AbortForm} {r : Request} (h : aborts form (.held r .queued) = true) :
    abortMatch form (.held r .queued) = some r.acceptance := by
  obtain ⟨n, hn⟩ := Option.isSome_iff_exists.mp h
  obtain ⟨q, hq, rfl⟩ := abortMatch_eq_some hn
  injection hq with hrq
  exact hrq ▸ hn

/-- No QUEUED context that stands can be DONE. -/
theorem AbortedFrom.aborts_of_done {form : AbortForm} {k n : Nat} {cs cs' : List Context} (h : AbortedFrom form k n cs cs')
    {j : Nat} {r q : Request} {m : Nat} (hj : cs[j]? = some (.held r .queued))
    (hj' : cs'[j]? = some (.held q (.done m .aborted []))) : aborts form (.held r .queued) = true := by
  cases hr : aborts form (.held r .queued) with
  | true => rfl
  | false => exact absurd ((h.kept j _ hj hr).symm.trans hj') (by simp)

/-- Where nothing matches, nothing is ended. -/
theorem AbortedFrom.refl {form : AbortForm} {k : Nat} {cs : List Context} (h : ∀ c ∈ cs, aborts form c = false) :
    AbortedFrom form k 0 cs cs where
  kept _ _ hj _ := hj
  ended j r hj hr := absurd (h _ (List.mem_of_getElem? hj)) (by simp [hr])
  ordered j _ r _ m _ hj _ hj' _ _ := absurd (hj.symm.trans hj') (by simp)
  free := rfl

theorem aborts_done (form : AbortForm) (r : Request) (m : Nat) (st : Status) (p : List Byte) :
    aborts form (.held r (.done m st p)) = false := by cases form <;> rfl

/-- ABORT ends the match accepted first, and then the rest. -/
theorem AbortedFrom.cons {form : AbortForm} {k n i : Nat} {cs cs' : List Context} {r : Request}
    (hi : cs[i]? = some (.held r .queued)) (hr : aborts form (.held r .queued) = true)
    (hfirst : ∀ q, .held q .queued ∈ cs → aborts form (.held q .queued) = true → r.acceptance ≤ q.acceptance)
    (h : AbortedFrom form (k + 1) n (cs.set i (.held r (.done k .aborted []))) cs') : AbortedFrom form k (n + 1) cs cs' := by
  obtain ⟨hlt, -⟩ := List.getElem?_eq_some_iff.mp hi
  have hother {j : Nat} (hj : j ≠ i) : (cs.set i (.held r (.done k .aborted [])))[j]? = cs[j]? :=
    List.getElem?_set_ne (Ne.symm hj)
  have hdone : cs'[i]? = some (.held r (.done k .aborted [])) :=
    h.kept i _ (List.getElem?_set_self hlt) (aborts_done form r k _ _)
  have hlater {j : Nat} {q : Request} {m : Nat} (hji : j ≠ i) (hj : cs[j]? = some (.held q .queued))
      (hj' : cs'[j]? = some (.held q (.done m .aborted []))) : aborts form (.held q .queued) = true ∧ k < m := by
    have hq := h.aborts_of_done ((hother hji).trans hj) hj'
    obtain ⟨p, hp, hlow, -⟩ := h.ended j q ((hother hji).trans hj) hq
    obtain rfl : p = m := by simpa [hp] using hj'
    exact ⟨hq, hlow⟩
  refine ⟨fun j c hj hc => ?kept, fun j q hj hq => ?ended, fun j l q p m o hj hl hj' hl' hlt' => ?ordered,
    h.free.trans ?free⟩
  case free =>
    obtain ⟨_, hget⟩ := List.getElem?_eq_some_iff.mp hi
    rw [freeCount, List.countP_set hlt, hget]
    rfl
  case kept =>
    have hji : j ≠ i := by
      rintro rfl
      obtain rfl : c = _ := Option.some.inj (hj.symm.trans hi)
      exact absurd hc (by simp [hr])
    exact h.kept j c ((hother hji).trans hj) hc
  case ended =>
    by_cases hji : j = i
    · subst hji
      obtain rfl : r = q := by simpa [hi] using hj
      exact ⟨k, hdone, Nat.le_refl k, by omega⟩
    · obtain ⟨m, hm, hlow, hhigh⟩ := h.ended j q ((hother hji).trans hj) hq
      exact ⟨m, hm, by omega, by omega⟩
  case ordered =>
    by_cases hli : l = i
    · subst hli
      obtain rfl : r = p := by simpa [hi] using hl
      by_cases hjl : j = l
      · subst hjl
        obtain rfl : r = q := by simpa [hi] using hj
        exact absurd hlt' (lt_irrefl _)
      · have := hfirst q (List.mem_of_getElem? hj) (hlater hjl hj hj').1
        omega
    · by_cases hji : j = i
      · subst hji
        obtain rfl : r = q := by simpa [hi] using hj
        obtain ⟨-, rfl⟩ : r = r ∧ k = m := by simpa [hdone] using hj'
        exact (hlater hli hl hl').2
      · exact h.ordered j l q p m o ((hother hji).trans hj) ((hother hli).trans hl) hj' hl' hlt'

/-- One turn of ABORT: nothing matches, or the match accepted first is ended. -/
theorem State.abortOne_cases (s : State) (form : AbortForm) :
    (s.abortOne form = none ∧ ∀ c ∈ s.contexts, aborts form c = false) ∨
    ∃ i r, s.contexts[i]? = some (.held r .queued) ∧ aborts form (.held r .queued) = true ∧
      (∀ q, .held q .queued ∈ s.contexts → aborts form (.held q .queued) = true → r.acceptance ≤ q.acceptance) ∧
      s.abortOne form = some (s.finish i r .aborted []) := by
  unfold State.abortOne
  cases hlow : lowestBy (abortMatch form) s.contexts 0 none with
  | none => exact .inl ⟨rfl, fun c hc => by rw [aborts, ((lowestBy_none _ _ _ _).mp hlow).2 c hc]; rfl⟩
  | some found =>
    obtain ⟨i, a⟩ := found
    obtain hbest | ⟨j, c, hj, hc, ha⟩ := lowestBy_mem _ _ _ _ _ _ hlow
    · exact absurd hbest (by simp)
    · obtain ⟨r, rfl, rfl⟩ := abortMatch_eq_some ha
      obtain rfl : i = j := by omega
      refine .inr ⟨i, r, hc, by rw [aborts, ha]; rfl, fun q hq habort => ?_, ?_⟩
      · exact (lowestBy_le _ _ _ _ _ _ hlow).2 _ hq _ (abortMatch_queued habort)
      · have hget : s.contexts.getD i .free = .held r .queued := by rw [List.getD_eq_getElem?_getD, hc]; rfl
        simp only [hget]

/-- Ending a match leaves one fewer. -/
theorem countP_aborts_set {form : AbortForm} {cs : List Context} {i : Nat} {r : Request} (hi : cs[i]? = some (.held r .queued))
    (hr : aborts form (.held r .queued) = true) (k : Nat) :
    cs.countP (aborts form) = (cs.set i (.held r (.done k .aborted []))).countP (aborts form) + 1 := by
  obtain ⟨hlt, hget⟩ := List.getElem?_eq_some_iff.mp hi
  have hpos : 0 < cs.countP (aborts form) := List.countP_pos_iff.mpr ⟨_, List.mem_of_getElem? hi, hr⟩
  rw [List.countP_set hlt, hget, hr, aborts_done]
  simp only [if_true, Bool.false_eq_true, if_false]
  omega

/-- The turns of ABORT end every match, and change nothing else (R43). -/
theorem State.abortAll_spec (form : AbortForm) : ∀ (fuel : Nat) (s : State) (n : Nat),
    s.contexts.countP (aborts form) = n → n ≤ fuel →
    ∃ cs, State.abortAll form fuel s = ({ s with contexts := cs, nextCompletion := s.nextCompletion + n }, n) ∧
      AbortedFrom form s.nextCompletion n s.contexts cs
  | 0, s, n, hn, hle => by
    obtain rfl : n = 0 := Nat.le_zero.mp hle
    exact ⟨s.contexts, rfl, .refl fun c hc => by simpa using List.countP_eq_zero.mp hn c hc⟩
  | fuel + 1, s, n, hn, hle => by
    obtain ⟨hone, hnone⟩ | ⟨i, r, hi, hr, hfirst, hone⟩ := s.abortOne_cases form
    · obtain rfl : 0 = n := by rw [← hn]; exact (List.countP_eq_zero.mpr fun c hc => by simp [hnone c hc]).symm
      exact ⟨s.contexts, by rw [State.abortAll, hone]; rfl, .refl hnone⟩
    · have hcount := countP_aborts_set hi hr s.nextCompletion
      obtain ⟨n, rfl⟩ : ∃ k, n = k + 1 := ⟨_, hn.symm.trans hcount⟩
      obtain ⟨cs, hall, haborted⟩ := State.abortAll_spec form fuel (s.finish i r .aborted []) n
        (Nat.succ.inj (hcount.symm.trans hn)) (Nat.le_of_succ_le_succ hle)
      refine ⟨cs, ?_, haborted.cons hi hr hfirst⟩
      rw [State.abortAll, hone]
      simp only [hall]
      refine congrArg (fun k => ({ s with contexts := cs, nextCompletion := k }, n + 1)) ?_
      show s.nextCompletion + 1 + n = s.nextCompletion + (n + 1)
      omega

/-- The form that an ABORT's flag and tag make (R43). -/
theorem parseAbort_flag {flag : Byte} (x : Byte) (h : flag.toNat ≤ 1) : ∃ form, parseAbort [flag, x] = some form ∧
    ∀ c, aborts form c = (c.isQueued && (flag == 0x01 || c.hasTag x)) := by
  have hflag : flag = 0x00 ∨ flag = 0x01 := by
    have : flag.toNat = 0 ∨ flag.toNat = 1 := by omega
    exact this.imp BitVec.eq_of_toNat_eq BitVec.eq_of_toNat_eq
  rcases hflag with rfl | rfl
  · refine ⟨.tag x, rfl, fun c => ?_⟩
    rcases c with _ | ⟨r, _ | _ | _⟩
    case held.queued => by_cases hx : r.tag = x <;> simp [aborts, abortMatch, Context.isQueued, Context.hasTag, hx]
    all_goals rfl
  · refine ⟨.all, rfl, fun c => ?_⟩
    rcases c with _ | ⟨r, _ | _ | _⟩ <;> rfl

/-- Settles O44: the turns of ABORT end every match in acceptance order; then its own context is filled. -/
theorem abortEndsQueuedRequests : Obligations.AbortEndsQueuedRequests := by
  intro s tag flag x hacc hlen hflag
  obtain ⟨form, hparse, hhit⟩ := parseAbort_flag x hflag
  have hhit' : (fun c : Context => c.isQueued && (flag == 0x01 || c.hasTag x)) = aborts form := (funext hhit).symm
  dsimp only
  rw [hhit']
  have htakes : TakesImmediate s tag .abort := AcceptsAlsoFaulted.takesImmediate hacc rfl rfl
  obtain ⟨i, -, hlow, hilt, heq⟩ := htakes.doImmediate_eq [flag, x] s.noInputs (show 2 ≤ 520 by decide)
  have hrequest : s.newRequest .abort tag [flag, x] = ⟨tag, .abort, [flag, x], false, s.nextAcceptance⟩ := by
    rw [State.newRequest, armMatches_of_immediate _ htakes.immediate]
  obtain ⟨n, hn⟩ : ∃ n, s.contexts.countP (aborts form) = n := ⟨_, rfl⟩
  obtain ⟨cs, hall, haborted⟩ := State.abortAll_spec form contextCount (s.opened.takeIn .abort) n hn
    (hn ▸ List.countP_le_length.trans hlen.le)
  have hanswer : (s.opened.takeIn .abort).answer .abort [flag, x] s.noInputs =
      ({ s.opened.takeIn .abort with contexts := cs, nextCompletion := s.nextCompletion + n }, .ok, [byteOf n]) := by
    show (s.opened.takeIn .abort).answerAbort [flag, x] = _
    rw [State.answerAbort, hparse]
    simp only [hall]
    rfl
  have hfree : cs[i]? = some .free := haborted.kept i .free hlow.1 (by cases form <;> rfl)
  have hne {j : Nat} {r : Request} (hj : s.contexts[j]? = some (.held r .queued)) : i ≠ j := by
    rintro rfl
    exact absurd (hlow.1.symm.trans hj) (by simp)
  rw [hn]
  refine ⟨(s.doImmediate .abort tag [flag, x] s.noInputs).settle, i, rfl, ?_⟩
  rw [heq, hanswer, hrequest]
  refine ⟨⟨rfl, rfl, rfl, ?sdo⟩, hlow, rfl, rfl, rfl, ?own, ?ended, ?ordered, ?kept, rfl, fun _ => rfl⟩
  case sdo =>
    refine congrArg (fun n => Sdo.drive [0xFF, 0x00, byteOf n] 0xFF) ?_
    exact (freeCount_set hfree rfl).trans (congrArg (· - 1) haborted.free)
  case own => exact List.getElem?_set_self (List.getElem?_eq_some_iff.mp hfree).1
  case ended =>
    intro j r hj hr
    obtain ⟨m, hm, hrange⟩ := haborted.ended j r hj ((hhit _).trans hr)
    exact ⟨m, (List.getElem?_set_ne (hne hj)).trans hm, hrange⟩
  case ordered =>
    intro j l r q m p hj hl hj' hl' hlt
    exact haborted.ordered j l r q m p hj hl ((List.getElem?_set_ne (hne hj)).symm.trans hj')
      ((List.getElem?_set_ne (hne hl)).symm.trans hl') hlt
  case kept =>
    intro j c hj hji hc
    exact (List.getElem?_set_ne (Ne.symm hji)).trans (haborted.kept j c hj ((hhit c).trans hc))

end Sys2Proof.Machine
end

section
namespace Sys2Proof.Machine

/-! ### Lists in rising order -/

/-- In a strictly rising list an element stands at the position that counts those below it. -/
theorem getElem?_eq_some_iff_countP {L : List Nat} (h : L.Pairwise (· < ·)) (k i : Nat) :
    L[k]? = some i ↔ i ∈ L ∧ L.countP (· < i) = k := by
  induction L generalizing k with
  | nil => simp
  | cons x L ih =>
    obtain ⟨hx, hL⟩ := List.pairwise_cons.mp h
    have hnone : L.countP (· < x) = 0 := List.countP_eq_zero.mpr fun y hy => by have := hx y hy; simp; omega
    cases k with
    | zero =>
      constructor
      · intro hi
        obtain rfl : x = i := by simpa using hi
        exact ⟨List.mem_cons_self, by simp [hnone]⟩
      · rintro ⟨hmem, hcount⟩
        rcases List.mem_cons.mp hmem with rfl | hmem
        · rfl
        · have := hx i hmem
          simp [this] at hcount
    | succ k =>
      rw [List.getElem?_cons_succ, ih hL]
      constructor
      · rintro ⟨hmem, hcount⟩
        have := hx i hmem
        exact ⟨List.mem_cons_of_mem _ hmem, by simp [this, hcount]⟩
      · rintro ⟨hmem, hcount⟩
        rcases List.mem_cons.mp hmem with rfl | hmem
        · simp [hnone] at hcount
        · have := hx i hmem
          exact ⟨hmem, by simpa [this] using hcount⟩

/-- Counting below a bound, in the list or among the numbers themselves. -/
theorem countP_range_eq {L : List Nat} (h : L.Pairwise (· < ·)) {p : Nat → Bool} {i : Nat}
    (hp : ∀ x < i, p x = true ↔ x ∈ L) : (List.range i).countP p = L.countP (· < i) := by
  rw [List.countP_eq_length_filter, List.countP_eq_length_filter]
  refine ((List.perm_ext_iff_of_nodup ?_ ?_).mpr fun x => ?_).length_eq
  · exact List.nodup_range.filter _
  · exact (h.imp Nat.ne_of_lt).filter _
  · simp only [List.mem_filter, List.mem_range, decide_eq_true_eq]
    constructor
    · rintro ⟨hlt, hx⟩; exact ⟨(hp x hlt).mp hx, hlt⟩
    · rintro ⟨hx, hlt⟩; exact ⟨hlt, (hp x hlt).mpr hx⟩

/-- The last element for which a test holds, by its position. -/
theorem getLast?_filter_eq_some_iff {α : Type} (p : α → Bool) (l : List α) (a : α) :
    (l.filter p).getLast? = some a ↔
      ∃ j : Nat, l[j]? = some a ∧ p a = true ∧ ∀ (k : Nat) (x : α), j < k → l[k]? = some x → p x = false := by
  rw [List.getLast?_filter, List.find?_eq_some_iff_append]
  constructor
  · rintro ⟨ha, as, bs, hl, has⟩
    obtain rfl : l = bs.reverse ++ a :: as.reverse := by simpa using congrArg List.reverse hl
    refine ⟨bs.reverse.length, by simp, ha, fun k x hk hx => ?_⟩
    obtain ⟨d, rfl⟩ := Nat.exists_eq_add_of_lt hk
    have hmem : x ∈ as.reverse := by
      rw [Nat.add_assoc, List.getElem?_append_right (Nat.le_add_right _ _), Nat.add_sub_cancel_left,
        List.getElem?_cons_succ] at hx
      exact List.mem_of_getElem? hx
    simpa using has x (List.mem_reverse.mp hmem)
  · rintro ⟨j, hj, ha, hlast⟩
    obtain ⟨hjlt, hget⟩ := List.getElem?_eq_some_iff.mp hj
    refine ⟨ha, (l.drop (j + 1)).reverse, (l.take j).reverse, ?_, fun x hx => ?_⟩
    · have hsplit : l = l.take j ++ a :: l.drop (j + 1) := by
        rw [← hget, List.cons_getElem_drop_succ, List.take_append_drop]
      conv_lhs => rw [hsplit]
      simp
    · obtain ⟨d, hd⟩ := List.getElem?_of_mem (List.mem_reverse.mp hx)
      rw [List.getElem?_drop] at hd
      simp [hlast _ x (by omega) hd]

/-! ### The committed slots of a segment -/

/-- A byte that does not read erased is listed. -/
theorem mem_of_readByte_ne {m : List Host.Cell} (hwf : Memory.wf m = true) {a : Nat} (h : readByte m a ≠ erasedByte) :
    (a, readByte m a) ∈ m := by
  by_contra hnot
  refine h (readByte_of_not_mem fun c hc heq => hnot ?_)
  rw [← heq, readByte_of_mem hwf hc]
  exact hc

theorem isMark_iff {seg size : Nat} {c : Host.Cell} : isMark seg size c = true ↔
    inSegment seg c.1 = true ∧ segBase seg + pageSize ≤ c.1 ∧ (c.1 - segBase seg - pageSize) % size = markOffset ∧
      c.2 = commitMark := by
  simp [isMark, and_assoc]

/-- The committed slots are the slots of the segment's marks. -/
theorem committedSlots_eq (m : List Host.Cell) (seg size : Nat) :
    committedSlots m seg size = (m.filter (isMark seg size)).map (fun c => slotIndex seg size c.1) := by
  rw [committedSlots, segmentCells, List.filter_filter]
  refine congrArg (List.map _) (List.filter_congr fun c _ => ?_)
  rw [isMark, Bool.and_comm]

/-- A mark stands at the mark offset of its slot, which is one of the segment's. -/
theorem isMark_slot {seg size : Nat} (hsize : size ∈ [64, 128, 256, 512]) {c : Host.Cell} (h : isMark seg size c = true) :
    c.1 = slotBase seg size (slotIndex seg size c.1) + markOffset ∧ slotIndex seg size c.1 < slotsPerSegment size := by
  obtain ⟨hin, hpage, hmod, -⟩ := isMark_iff.mp h
  have hdecomp := Nat.div_add_mod (c.1 - segBase seg - pageSize) size
  rw [hmod] at hdecomp
  constructor
  · rw [slotBase, slotIndex, Nat.mul_comm]
    omega
  · have hend : c.1 < segBase seg + segmentSize := by
      rw [inSegment, Bool.and_eq_true, decide_eq_true_iff, decide_eq_true_iff] at hin
      exact hin.2
    have hmul := slotsPerSegment_mul hsize
    rw [slotIndex]
    refine Nat.div_lt_of_lt_mul ?_
    rw [Nat.mul_comm, hmul]
    simp only [segmentSize, pageSize] at hend hpage ⊢
    omega

theorem mem_committedSlots {m : List Host.Cell} (hwf : Memory.wf m = true) {seg size : Nat}
    (hsize : size ∈ [64, 128, 256, 512]) {i : Nat} : i ∈ committedSlots m seg size ↔
      i < slotsPerSegment size ∧ readByte m (slotBase seg size i + markOffset) = commitMark := by
  rw [committedSlots_eq, List.mem_map]
  constructor
  · rintro ⟨c, hc, rfl⟩
    obtain ⟨hm, hmark⟩ := List.mem_filter.mp hc
    obtain ⟨haddr, hlt⟩ := isMark_slot hsize hmark
    refine ⟨hlt, ?_⟩
    rw [← haddr, readByte_of_mem hwf hm]
    exact (isMark_iff.mp hmark).2.2.2
  · rintro ⟨hlt, hread⟩
    have hoff : markOffset < size := by
      simp only [List.mem_cons, List.not_mem_nil, or_false] at hsize
      rw [markOffset]
      omega
    obtain ⟨hpage, hin⟩ := slotBase_bounds (seg := seg) hsize hlt hoff
    refine ⟨(slotBase seg size i + markOffset, commitMark), List.mem_filter.mpr ⟨?_, ?_⟩, slotIndex_slotBase hoff⟩
    · rw [← hread]
      exact mem_of_readByte_ne hwf (by rw [hread]; decide)
    · refine isMark_iff.mpr ⟨hin, hpage, ?_, rfl⟩
      rw [slotOffset_eq, Nat.add_mul_mod_self_left, Nat.mod_eq_of_lt hoff]

theorem committedSlots_pairwise {m : List Host.Cell} (hwf : Memory.wf m = true) {seg size : Nat}
    (hsize : size ∈ [64, 128, 256, 512]) : (committedSlots m seg size).Pairwise (· < ·) := by
  rw [committedSlots_eq, List.pairwise_map]
  have hsorted : (m.filter (isMark seg size)).Pairwise (fun c d => c.1 < d.1) :=
    (List.pairwise_map.mp ((Memory.wf_iff m).mp hwf).1).filter _
  refine hsorted.imp_of_mem fun {c d} hc hd hlt => ?_
  have hcaddr := (isMark_slot hsize (List.mem_filter.mp hc).2).1
  have hdaddr := (isMark_slot hsize (List.mem_filter.mp hd).2).1
  by_contra hge
  have hmul := Nat.mul_le_mul_right size (Nat.le_of_not_lt hge)
  rw [slotBase] at hcaddr hdaddr
  omega

/-! ### The slot of a number -/

/-- The slots counted for a segment of the list: those below the write position in the newest (R104). -/
def countedSlots (st : Machine.Stream) (m : List Host.Cell) (l : SegLink) : List Nat :=
  if st.newest = some l then (committedSlots m l.seg st.slotSize).filter (fun i => decide (i < st.writePos))
  else committedSlots m l.seg st.slotSize

theorem mem_countedSlots {st : Machine.Stream} {m : List Host.Cell} {l : SegLink} {i : Nat} :
    i ∈ countedSlots st m l ↔ i ∈ committedSlots m l.seg st.slotSize ∧ (st.newest = some l → i < st.writePos) := by
  unfold countedSlots
  split
  · next h => simp [h]
  · next h => simp [h]

theorem countedSlots_pairwise {st : Machine.Stream} {m : List Host.Cell} (hwf : Memory.wf m = true)
    (hsize : st.slotSize ∈ [64, 128, 256, 512]) (l : SegLink) : (countedSlots st m l).Pairwise (· < ·) := by
  unfold countedSlots
  split
  · exact (committedSlots_pairwise hwf hsize).filter _
  · exact committedSlots_pairwise hwf hsize

/-- The slot of a number is the counted slot that as many counted slots precede as numbers of its segment do. -/
theorem Stream.slotOf_eq_some {st : Machine.Stream} {m : List Host.Cell} {n seg i : Nat} :
    st.slotOf m n = some (seg, i) ↔
      ∃ l, st.segmentOf n = some l ∧ l.seg = seg ∧ (countedSlots st m l)[n - l.firstSeq]? = some i := by
  rw [Stream.slotOf]
  cases hl : st.segmentOf n with
  | none => simp
  | some l =>
    show ((countedSlots st m l)[n - l.firstSeq]?).map (fun slot => (l.seg, slot)) = some (seg, i) ↔ _
    simp only [Option.map_eq_some_iff, Option.some.injEq, Prod.mk.injEq]
    constructor
    · rintro ⟨slot, hslot, rfl, rfl⟩; exact ⟨l, rfl, rfl, hslot⟩
    · rintro ⟨_, rfl, rfl, hslot⟩; exact ⟨i, hslot, rfl, rfl⟩

/-- The mark byte of a slot (R46, R88). -/
def slotMarked (st : Machine.Stream) (m : List Host.Cell) (seg x : Nat) : Bool :=
  readByte m (seg * 32768 + 512 + x * st.slotSize + 7) == 0x5A

theorem slotMarked_iff {st : Machine.Stream} {m : List Host.Cell} {seg x : Nat} :
    slotMarked st m seg x = true ↔ readByte m (slotBase seg st.slotSize x + markOffset) = commitMark := beq_iff_eq

/-- The slot of a number, by the marks of its segment (R71, R104). -/
theorem Stream.slotOf_iff {st : Machine.Stream} {m : List Host.Cell} (hwf : Memory.wf m = true)
    (hsize : st.slotSize ∈ [64, 128, 256, 512]) (n seg i : Nat) :
    st.slotOf m n = some (seg, i) ↔
      ∃ (j : Nat) (l : SegLink), st.segs[j]? = some l ∧ l.seg = seg ∧ l.firstSeq ≤ n ∧
        (∀ (k : Nat) (x : SegLink), j < k → st.segs[k]? = some x → n < x.firstSeq) ∧
        i < slotsPerSegment st.slotSize ∧ (st.newest = some l → i < st.writePos) ∧ slotMarked st m seg i = true ∧
          (List.range i).countP (slotMarked st m seg) = n - l.firstSeq := by
  have hsegment (l : SegLink) : st.segmentOf n = some l ↔ ∃ j : Nat, st.segs[j]? = some l ∧ l.firstSeq ≤ n ∧
      ∀ (k : Nat) (x : SegLink), j < k → st.segs[k]? = some x → n < x.firstSeq := by
    rw [Stream.segmentOf, getLast?_filter_eq_some_iff]
    simp only [decide_eq_true_eq, decide_eq_false_iff_not, Nat.not_le]
  have hslot (l : SegLink) : (countedSlots st m l)[n - l.firstSeq]? = some i ↔
      i < slotsPerSegment st.slotSize ∧ (st.newest = some l → i < st.writePos) ∧ slotMarked st m l.seg i = true ∧
        (List.range i).countP (slotMarked st m l.seg) = n - l.firstSeq := by
    have hmem (x : Nat) : x ∈ countedSlots st m l ↔ (x < slotsPerSegment st.slotSize ∧ slotMarked st m l.seg x = true) ∧
        (st.newest = some l → x < st.writePos) := by
      rw [mem_countedSlots, mem_committedSlots hwf hsize, slotMarked_iff]
    rw [getElem?_eq_some_iff_countP (countedSlots_pairwise hwf hsize l), hmem]
    constructor
    · rintro ⟨⟨⟨hlt, hmark⟩, hnewest⟩, hcount⟩
      refine ⟨hlt, hnewest, hmark, ?_⟩
      rw [countP_range_eq (countedSlots_pairwise hwf hsize l) fun x hx => ?_, hcount]
      rw [hmem]
      exact ⟨fun hm => ⟨⟨hx.trans hlt, hm⟩, fun h => hx.trans (hnewest h)⟩, fun h => h.1.2⟩
    · rintro ⟨hlt, hnewest, hmark, hcount⟩
      refine ⟨⟨⟨hlt, hmark⟩, hnewest⟩, ?_⟩
      rw [← hcount, countP_range_eq (countedSlots_pairwise hwf hsize l) fun x hx => ?_]
      rw [hmem]
      exact ⟨fun hm => ⟨⟨hx.trans hlt, hm⟩, fun h => hx.trans (hnewest h)⟩, fun h => h.1.2⟩
  rw [Stream.slotOf_eq_some]
  constructor
  · rintro ⟨l, hl, rfl, hi⟩
    obtain ⟨j, hj, hfirst, hlast⟩ := (hsegment l).mp hl
    exact ⟨j, l, hj, rfl, hfirst, hlast, (hslot l).mp hi⟩
  · rintro ⟨j, l, hj, rfl, hfirst, hlast, hi⟩
    exact ⟨l, (hsegment l).mpr ⟨j, hj, hfirst, hlast⟩, rfl, (hslot l).mpr hi⟩

/-! ### An intact record -/

theorem byteOf_eq_of_mod {n : Nat} {b : Byte} (h : n % 256 = b.toNat) : byteOf n = b :=
  BitVec.eq_of_toNat_eq ((BitVec.toNat_ofNat n 8).trans h)

theorem be16_ofBe (a b : Byte) : be16 (ofBe [a, b]) = [a, b] := by
  have ha := a.isLt; have hb := b.isLt
  have hvalue : ofBe [a, b] = a.toNat * 256 + b.toNat := by simp [ofBe]
  rw [be16, hvalue, byteOf_eq_of_mod (b := a) (by omega), byteOf_eq_of_mod (b := b) (by omega)]

theorem be32_ofBe (a b c d : Byte) : be32 (ofBe [a, b, c, d]) = [a, b, c, d] := by
  have ha := a.isLt; have hb := b.isLt; have hc := c.isLt; have hd := d.isLt
  have hvalue : ofBe [a, b, c, d] = ((a.toNat * 256 + b.toNat) * 256 + c.toNat) * 256 + d.toNat := by simp [ofBe]
  rw [be32, hvalue, byteOf_eq_of_mod (b := a) (by omega), byteOf_eq_of_mod (b := b) (by omega),
    byteOf_eq_of_mod (b := c) (by omega), byteOf_eq_of_mod (b := d) (by omega)]

/-- A two-byte field holds a number exactly if it is that number's bytes. -/
theorem ofBe_eq_iff_be16 {l : List Byte} (hl : l.length = 2) {n : Nat} (hn : n < 2 ^ 16) : ofBe l = n ↔ l = be16 n := by
  match l, hl with
  | [a, b], _ =>
    constructor
    · rintro rfl; exact (be16_ofBe a b).symm
    · intro h; rw [h, ofBe_be16 n hn]

/-- A four-byte field holds a number exactly if it is that number's bytes. -/
theorem ofBe_eq_iff_be32 {l : List Byte} (hl : l.length = 4) {n : Nat} (hn : n < 2 ^ 32) : ofBe l = n ↔ l = be32 n := by
  match l, hl with
  | [a, b, c, d], _ =>
    constructor
    · rintro rfl; exact (be32_ofBe a b c d).symm
    · intro h; rw [h, ofBe_be32 n hn]

theorem recordIntact_iff {st : Machine.Stream} {slot : List Byte} {n : Nat} (hsize : st.slotSize ∈ [64, 128, 256, 512])
    (hlen : slot.length = st.slotSize) (hn : n < 2 ^ 32) : recordIntact st slot n = true ↔
      slot.take 4 = be32 n ∧ (slot.getD 6 0).getLsbD 0 = st.timeOption ∧ (slot.getD 6 0).getLsbD 1 = st.tempOption ∧
        ∃ len, (slot.drop 4).take 2 = be16 len ∧ len + 10 + st.optionBytes ≤ st.slotSize ∧
          checkBytes (slot.take 7 ++ (slot.drop 8).take (st.optionBytes + len)) = slot.drop (st.slotSize - 2) := by
  have hopt : st.optionBytes ≤ 6 := by unfold Stream.optionBytes; split <;> split <;> decide
  simp only [List.mem_cons, List.not_mem_nil, or_false] at hsize
  have hnumber : ofBe (slot.take 4) = n ↔ slot.take 4 = be32 n := ofBe_eq_iff_be32 (by rw [List.length_take]; omega) hn
  have hfield : ((slot.drop 4).take 2).length = 2 := by rw [List.length_take, List.length_drop]; omega
  have hfits (len : Nat) : len ≤ st.maxPayload ↔ len + 10 + st.optionBytes ≤ st.slotSize := by
    rw [Stream.maxPayload]; omega
  simp only [recordIntact, Bool.and_eq_true, decide_eq_true_eq, beq_iff_eq, hnumber, hfits]
  constructor
  · rintro ⟨⟨⟨⟨hlen, hcheck⟩, hseq⟩, htime⟩, htemp⟩
    exact ⟨hseq, htime, htemp, _, (ofBe_eq_iff_be16 hfield (by omega)).mp rfl, hlen, hcheck⟩
  · rintro ⟨hseq, htime, htemp, len, hbytes, hlen, hcheck⟩
    rw [(ofBe_eq_iff_be16 hfield (by omega)).mpr hbytes]
    exact ⟨⟨⟨⟨hlen, hcheck⟩, hseq⟩, htime⟩, htemp⟩

/-! ### READ -/

/-- What READ gives for a number whose slot is found (R105, R106). -/
theorem Stream.readRecord_of_slot {st : Machine.Stream} {m : List Host.Cell} {n seg i : Nat}
    (h : st.slotOf m n = some (seg, i)) : st.readRecord m n =
      let slot := readRange m (slotBase seg st.slotSize i) st.slotSize
      (recordIntact st slot n, if recordIntact st slot n then slot.take 4 ++ [slot.getD 6 0] ++ (slot.drop 4).take 2
          ++ (slot.drop 8).take (st.optionBytes + ofBe ((slot.drop 4).take 2)) else be32 n ++ slot) := by
  rw [Stream.readRecord, h]
  dsimp only
  split
  · next hintact => rw [hintact]
  · next hintact => rw [Bool.not_eq_true] at hintact; rw [hintact]

theorem Stream.readRecord_of_none {st : Machine.Stream} {m : List Host.Cell} {n : Nat} (h : st.slotOf m n = none) :
    st.readRecord m n = (false, be32 n) := by rw [Stream.readRecord, h]

/-- The four answers of READ (R103 to R106). -/
theorem State.startRead_eq (s : State) (t : Machine.Task) {id : Byte} (n : Word) (hid : id.toNat < 16) :
    s.startRead t (id :: be32 n.toNat) =
      let st := t.work.tables.stream id.toNat
      if st.state = .absent then s.complete t .streamAbsent []
      else if n.toNat < st.oldest then s.complete t .notRetained (be32 st.oldest ++ be32 st.next)
      else if st.next ≤ n.toNat then s.complete t .notYet (be32 st.oldest ++ be32 st.next)
      else s.complete t (if (st.readRecord s.flash n.toNat).1 then .ok else .damagedData) (st.readRecord s.flash n.toNat).2 := by
  rw [State.startRead, parseIdNumber_be32 id n hid]

/-- An accepted READ completes with what its work answers. -/
theorem Accepts.read_completes {s : State} {tag : Byte} (h : Accepts s tag) (he : EngineIdle s) {id : Byte} {n : Word}
    (env : Env) {st : Status} {p : List Byte}
    (hs : ∀ (P : State) (t : Machine.Task), P.flash = s.flash → t.work = s.committed →
      P.startRead t (id :: be32 n.toNat) = P.complete t st p) :
    CompletedAtOnce s (s.doMedia .read tag (id :: be32 n.toNat) env).settle .read tag (id :: be32 n.toNat) false st p
      s.committed [] :=
  h.completes he rfl (params := id :: be32 n.toNat) (show 5 ≤ 520 by decide) (armMatches_unarmed _ _ _ rfl) rfl fun i hi =>
    hs _ _ (h.starting_fields env _ rfl hi).1 rfl

/-- Settles O46: the answers of READ, the slot that its number names, and when the record there is intact. -/
theorem readReturnsRecord : Obligations.ReadReturnsRecord := by
  refine ⟨?answers, fun st m n seg i hwf hsize => Stream.slotOf_iff hwf hsize n seg i, ?intact⟩
  case intact =>
    intro st slot n hsize hlen hn
    simpa only [Stream.optionBytes, ← Nat.add_assoc] using recordIntact_iff hsize hlen hn
  case answers =>
    intro s tag id n env hacc hidle hid
    refine ⟨_, rfl, fun habsent => ?_, fun hlive hold => ?_, fun hlive hold hnew => ?_, fun hlive hold hnew =>
      ⟨fun seg i hslot => ?_, fun hslot => ?_⟩⟩
    all_goals
      refine hacc.read_completes hidle env fun P t hflash hwork => ?_
      rw [P.startRead_eq t n hid, hflash, hwork]
      dsimp only
    · rw [if_pos habsent]
    · rw [if_neg hlive, if_pos hold]
    · rw [if_neg hlive, if_neg (Nat.not_lt.mpr hold), if_pos hnew]
    · rw [if_neg hlive, if_neg (Nat.not_lt.mpr hold), if_neg (Nat.not_le.mpr hnew), Stream.readRecord_of_slot hslot]
    · rw [if_neg hlive, if_neg (Nat.not_lt.mpr hold), if_neg (Nat.not_le.mpr hnew), Stream.readRecord_of_none hslot]
      rfl

end Sys2Proof.Machine
end

section
namespace Sys2Proof.Machine

/-! ### The cursor -/

theorem parseStreamId_of_lt {id : Byte} (h : id.toNat < 16) : parseStreamId [id] = some id.toNat := if_pos h

/-- The answers of READ_NEXT (R108). -/
theorem State.startReadNext_eq (s : State) (t : Machine.Task) {id : Byte} (hid : id.toNat < 16) :
    s.startReadNext t [id] =
      let st := t.work.tables.stream id.toNat
      let n := max st.oldest st.cursor
      let r := st.readRecord s.flash n
      if st.state = .absent then s.complete t .streamAbsent []
      else if st.oldest = st.next ∨ st.cursor = st.next then s.complete t .notYet (be32 st.cursor)
      else s.complete (t.setCursor id.toNat (n + 1))
        (if !r.1 then .damagedData else if st.cursor < st.oldest then .cursorSkipped else .ok)
        (be32 (st.oldest - st.cursor) ++ r.2) := by
  rw [State.startReadNext, parseStreamId_of_lt hid]

/-- The answers of SEEK (R109). -/
theorem State.startSeek_eq (s : State) (t : Machine.Task) {id : Byte} (n : Word) (hid : id.toNat < 16) :
    s.startSeek t (id :: be32 n.toNat) =
      let st := t.work.tables.stream id.toNat
      let c := max st.oldest (min st.next n.toNat)
      if st.state = .absent then s.complete t .streamAbsent []
      else s.complete (t.setCursor id.toNat c) (if c = n.toNat then .ok else .clamped) (be32 c) := by
  rw [State.startSeek, parseIdNumber_be32 id n hid]

/-- A request that may move a cursor and nothing else completes with what its work answers. -/
theorem Accepts.cursor_completes {s : State} {tag : Byte} (h : Accepts s tag) (he : EngineIdle s) {k : Kind}
    (hk : k.isMedia = true) (harm : k.isArmed = false) {params : List Byte} (hl : params.length ≤ maxParams) (env : Env)
    {st : Status} {p : List Byte} {w : Committed}
    (hw : w.tables.settings.tickPeriod = s.committed.tables.settings.tickPeriod)
    (hs : ∀ (P : State) (i : Nat) (r : Request), P.flash = s.flash → r.kind = k → r.params = params →
      P.startKind ⟨.request i r, s.committed, [], 0⟩ r env = P.complete ⟨.request i r, w, [], 0⟩ st p) :
    CompletedAtOnce s (s.doMedia k tag params env).settle k tag params false st p w [] :=
  h.completes he hk hl (armMatches_unarmed _ _ _ harm) hw fun _ hi =>
    hs _ _ _ (h.starting_fields env _ hk hi).1 rfl rfl

/-- Settles O47: the answers of READ_NEXT and SEEK, and what they leave of the cursor. -/
theorem cursorRequestsMoveCursor : Obligations.CursorRequestsMoveCursor := by
  refine ⟨fun s tag id env hacc hidle hid => ⟨fun hslot => Stream.readRecord_of_none hslot, fun _ _ hslot => ?record, ?readNext⟩,
    fun s tag id n env hacc hidle hid => ?seek⟩
  case record =>
    have hread := Stream.readRecord_of_slot hslot
    refine ⟨fun hintact => hread.trans ?_, fun hbad => hread.trans ?_⟩
    · exact Prod.ext hintact (if_pos hintact)
    · exact Prod.ext hbad (if_neg (Bool.eq_false_iff.mp hbad))
  case readNext =>
    have hcompletes {st : Status} {p : List Byte} {w : Committed} := hacc.cursor_completes hidle (k := .readNext) rfl rfl
      (params := [id]) (show 1 ≤ 520 by decide) env (st := st) (p := p) (w := w)
    refine ⟨_, rfl, fun habsent => ?_, fun hlive hnone => ?_, fun hlive hsome hcursor => ?_⟩
    all_goals
      refine hcompletes rfl fun P i r hflash hkind hparams => ?_
      have hstart : P.startKind ⟨.request i r, s.committed, [], 0⟩ r env = P.startReadNext ⟨.request i r, s.committed, [], 0⟩ [id] := by
        rw [State.startKind, hkind, hparams]
      rw [hstart, P.startReadNext_eq _ hid, hflash]
      dsimp only
    · rw [if_pos habsent]
    · rw [if_neg hlive, if_pos hnone]
    · rw [if_neg hlive, if_neg (by tauto)]
      simp only [Bool.not_eq_true']
      rfl
  case seek =>
    have hcompletes {st : Status} {p : List Byte} {w : Committed} := hacc.cursor_completes hidle (k := .seek) rfl rfl
      (params := id :: be32 n.toNat) (show 5 ≤ 520 by decide) env (st := st) (p := p) (w := w)
    refine ⟨_, rfl, fun habsent => ?_, fun hlive => ?_⟩
    all_goals
      refine hcompletes rfl fun P i r hflash hkind hparams => ?_
      have hstart : P.startKind ⟨.request i r, s.committed, [], 0⟩ r env =
          P.startSeek ⟨.request i r, s.committed, [], 0⟩ (id :: be32 n.toNat) := by
        rw [State.startKind, hkind, hparams]
      rw [hstart, P.startSeek_eq _ n hid]
      dsimp only
    · rw [if_pos habsent]
    · rw [if_neg hlive]
      rfl

end Sys2Proof.Machine
end

section
namespace Sys2Proof.Machine

/-! ### A request that its checks refuse -/

/-- The row of a media kind puts the request through the engine. -/
theorem Kind.exec_command_media {k : Kind} (hk : k.isMedia = true) (tag : Byte) (params : List Byte) (env : Env) (s : State) :
    exec (k.command tag params env) s = .next (s.doMedia k tag params env).settle := by
  cases k
  case read | readNext | seek | sampleTemperature | setTemperature | writeProfile | append | trim | createStream | deleteStream
    | sealStream | setHold | clearHold | format | setOption | commitProfiles | setOwnerLabel | fixGuard => rfl
  all_goals exact absurd hk (by decide)

/-- A request that completes at once, with an empty payload and committed state as it was, has been refused. -/
theorem CompletedAtOnce.refused {s t : State} {k : Kind} {tag : Byte} {params : List Byte} {armed : Bool} {st : Status}
    (h : CompletedAtOnce s t k tag params armed st [] s.committed []) : Refused s t k tag params armed st := by
  obtain ⟨hanswered, hstate, hflash⟩ := h
  refine ⟨hanswered, hstate.trans ?_, hflash⟩
  have hreconsider : (s.reconsider || (s.reclaimPaused && (s.committed.activeProfile != s.committed.activeProfile ||
      (s.committed.permits && !s.committed.permits)))) = s.comparePool.reconsider := by
    have hsame : s.comparePool.reconsider = s.reconsider := by
      rw [State.comparePool_frame]
    simp [hsame]
  rw [hreconsider]
  rfl

/-- An accepted media request whose checks complete it without an effect: they see committed state, the parameters and the
armed mark (R39, R141). -/
theorem Accepts.answersAtOnce {s : State} {tag : Byte} (h : Accepts s tag) (he : EngineIdle s) {k : Kind}
    (hk : k.isMedia = true) {params : List Byte} (hl : params.length ≤ maxParams) {env : Env} {armed : Bool}
    (ha : armMatches s.armLatch k params = armed) {st : Status} {p : List Byte}
    (hs : ∀ (P : State) (t : Machine.Task) (r : Request), t.work = s.committed → r.kind = k → r.params = params →
      r.armed = armed → P.startKind t r env = P.complete t st p) :
    ∃ t, exec (k.command tag params env) s = .next t ∧ CompletedAtOnce s t k tag params armed st p s.committed [] :=
  ⟨_, Kind.exec_command_media hk tag params env s, h.completes he hk hl ha rfl fun _ _ => hs _ _ _ rfl rfl rfl ha⟩

/-- The same where they refuse it. -/
theorem Accepts.refuses {s : State} {tag : Byte} (h : Accepts s tag) (he : EngineIdle s) {k : Kind}
    (hk : k.isMedia = true) {params : List Byte} (hl : params.length ≤ maxParams) {env : Env} {armed : Bool}
    (ha : armMatches s.armLatch k params = armed) {st : Status}
    (hs : ∀ (P : State) (t : Machine.Task) (r : Request), t.work = s.committed → r.kind = k → r.params = params →
      r.armed = armed → P.startKind t r env = P.refuse t st) :
    ∃ t, exec (k.command tag params env) s = .next t ∧ Refused s t k tag params armed st := by
  obtain ⟨t, hexec, hdone⟩ := h.answersAtOnce he hk hl ha hs
  exact ⟨t, hexec, hdone.refused⟩

/-! ### Fields that are not malformed -/

theorem parseAppend_of_not_malformed {tb : Tables} {id marker : Byte} {payload : List Byte}
    (h : ¬ Malformed tb .append (id :: marker :: payload)) :
    (∃ m, parseAppend (id :: marker :: payload) = some (id.toNat, m, payload)) ∧
      ((tb.stream id.toNat).state ≠ .absent → payload.length ≤ (tb.stream id.toNat).maxPayload) ∧ payload.length ≤ 502 := by
  simp only [Malformed, List.getD_cons_zero, List.getD_cons_succ, List.length_cons, not_or, not_and, Nat.not_lt,
    Nat.not_le] at h
  obtain ⟨-, hid, hmarker, hlen, hroom⟩ := h
  refine ⟨?_, fun hlive => ?_, by omega⟩
  · have hm : marker = 0x00 ∨ marker = 0x01 := by bv_omega
    have hpay : payload.length ≤ largestPayload := by rw [largestPayload]; omega
    rcases hm with rfl | rfl
    · exact ⟨false, by simp [parseAppend, parseId, streamCount, hid, parseFlag, hpay]⟩
    · exact ⟨true, by simp [parseAppend, parseId, streamCount, hid, parseFlag, hpay]⟩
  · have := hroom hlive
    rw [Stream.maxPayload_eq]
    omega

theorem parseFlag_of_le {b : Byte} (h : b.toNat ≤ 1) : parseFlag b = some (decide (b = 0x01)) := by
  have hb : b = 0x00 ∨ b = 0x01 := by bv_omega
  rcases hb with rfl | rfl <;> rfl

/-- A field of WRITE_PROFILE with its values in range (R126). -/
theorem parseWriteProfile_eq {i u lh ll hh hl p pc ec : Byte} (hi : i.toNat ≤ 7) (hu : u.toNat ≤ 1) (hp : p.toNat ≤ 1)
    (hpc : pc.toNat ≤ 3) (hec : ec.toNat ≤ 3) (hrange : i = 0x00 ∨ u = 0x00 ∨ (lh ++ ll).toInt < (hh ++ hl).toInt) :
    parseWriteProfile [i, u, lh, ll, hh, hl, p, pc, ec] = some (i.toNat,
      ⟨decide (u = 0x01 ∨ i = 0x00), lh ++ ll, hh ++ hl, decide (p = 0x01), pc.toNat, ec.toNat⟩) := by
  have hi0 : (i.toNat == 0) = decide (i = 0x00) := by
    rw [Bool.eq_iff_iff]; simp; bv_omega
  have hclasses : ¬ (7 < i.toNat ∨ 3 < pc.toNat ∨ 3 < ec.toNat) := by omega
  have hok : ¬ (i.toNat ≠ 0 ∧ decide (u = 0x01) = true ∧ ¬ (lh ++ ll).toInt < (hh ++ hl).toInt) := by
    rintro ⟨hne, hused, hnot⟩
    rcases hrange with rfl | rfl | hlt
    · exact hne rfl
    · exact absurd hused (by decide)
    · exact hnot hlt
  rw [parseWriteProfile, parseFlag_of_le hu, parseFlag_of_le hp]
  simp only [ofBe2, BitVec.ofNat_toNat, BitVec.setWidth_eq]
  rw [if_neg hclasses, if_neg hok, hi0, Bool.decide_or]

theorem parseWriteProfile_of_not_malformed {tb : Tables} {ps : List Byte} (h : ¬ Malformed tb .writeProfile ps) :
    ps.length = 9 ∧ ∃ x, parseWriteProfile ps = some x := by
  have hlen : ps.length = 9 := by
    by_contra hne
    exact h (.inl hne)
  refine ⟨hlen, ?_⟩
  match ps, hlen with
  | [i, u, lh, ll, hh, hl, p, pc, ec], _ =>
    simp only [Malformed, List.getD_cons_zero, List.getD_cons_succ, not_or, not_and, Nat.not_lt, not_not] at h
    obtain ⟨-, hi, hu, hp, hpc, hec, hrange⟩ := h
    refine ⟨_, parseWriteProfile_eq hi hu hp hpc hec ?_⟩
    by_cases hi0 : i = 0x00
    · exact .inl hi0
    · by_cases hu0 : u = 0x00
      · exact .inr (.inl hu0)
      · have hne : i.toNat ≠ 0 := by bv_omega
        have hone : u.toNat = 1 := by
          have : u.toNat ≠ 0 := by bv_omega
          have : u.toNat ≤ 1 := hu
          omega
        exact .inr (.inr (Int.not_le.mp (hrange hne hone)))

theorem exists_cons_of_succ_le_length {l : List Byte} {n : Nat} (h : n + 1 ≤ l.length) :
    ∃ b bs, l = b :: bs ∧ n ≤ bs.length := by
  cases l with
  | nil => simp at h
  | cons b bs => exact ⟨b, bs, rfl, Nat.le_of_succ_le_succ h⟩

theorem parseCreate_of_not_malformed {tb : Tables} {id : Byte} {fields : List Byte}
    (h : ¬ Malformed tb .createStream (id :: fields)) :
    (id :: fields).length ≤ 18 ∧ ∃ x, parseCreate (id :: fields) = some (id.toNat, x) := by
  have hlen : fields.length = 9 ∨ fields.length = 17 := by
    by_contra hne
    refine h (.inl ?_)
    rw [List.length_cons]
    omega
  obtain ⟨sc, r1, rfl, h1⟩ := exists_cons_of_succ_le_length (n := 8) (l := fields) (by omega)
  obtain ⟨ret, r2, rfl, h2⟩ := exists_cons_of_succ_le_length h1
  obtain ⟨qh, r3, rfl, h3⟩ := exists_cons_of_succ_le_length h2
  obtain ⟨ql, r4, rfl, h4⟩ := exists_cons_of_succ_le_length h3
  obtain ⟨opt, r5, rfl, h5⟩ := exists_cons_of_succ_le_length h4
  obtain ⟨s3, r6, rfl, h6⟩ := exists_cons_of_succ_le_length h5
  obtain ⟨s2, r7, rfl, h7⟩ := exists_cons_of_succ_le_length h6
  obtain ⟨s1, r8, rfl, h8⟩ := exists_cons_of_succ_le_length h7
  obtain ⟨s0, label, rfl, -⟩ := exists_cons_of_succ_le_length h8
  simp only [List.length_cons] at hlen ⊢
  simp only [Malformed, List.getD_cons_zero, List.getD_cons_succ, not_or, not_and_or, Nat.not_lt, Nat.not_le, not_not] at h
  obtain ⟨-, hid, hsc, hret, hquota, hwrap, hopt, hstart, hlast⟩ := h
  have hquotaLow : ret = 0x00 → 2 ≤ (qh ++ ql).toNat := fun hr =>
    hwrap.resolve_left fun hne => hne (congrArg BitVec.toNat hr)
  have hbytes : be32 (s3 ++ s2 ++ s1 ++ s0 : Word).toNat = [s3, s2, s1, s0] := by rw [← ofBe4, be32_ofBe]
  have hparse := parseCreate_ok id sc ret qh ql opt (s3 ++ s2 ++ s1 ++ s0) label hid (by omega) hsc hret hopt
    hquota hquotaLow (Nat.one_le_iff_ne_zero.mpr hstart) hlast
  rw [hbytes] at hparse
  exact ⟨by omega, hparse⟩

theorem parseSetOption_be16 {code : Byte} {v : Half} (h : SettingAllowed code.toNat v.toNat) :
    parseSetOption (code :: be16 v.toNat) = some (code.toNat, v) := by
  have hv : ofBe [byteOf (v.toNat / 256), byteOf v.toNat] = v.toNat := ofBe_be16 v.toNat v.isLt
  have hpermitted : settingPermitted code.toNat v.toNat = true := (SettingAllowed.iff _ _).mpr h
  simp [parseSetOption, be16, hv, hpermitted]

theorem Tables.any_hold_iff (tb : Tables) : tb.streams.any Stream.hold = true ↔ ∃ x ∈ tb.streams, x.hold = true :=
  List.any_eq_true

/-! ### The checks of each modifying kind (R39) -/

section Checks

variable (s : State) (t : Machine.Task) {r : Request} (env : Env)

theorem State.startKind_append {id marker : Byte} {m : Bool} {payload : List Byte} (hk : r.kind = .append)
    (hp : r.params = id :: marker :: payload) (hparse : parseAppend (id :: marker :: payload) = some (id.toNat, m, payload)) :
    s.startKind t r env =
      let st := t.work.tables.stream id.toNat
      if st.state = .absent then s.refuse t .streamAbsent
      else if st.maxPayload < payload.length then s.refuse t .badParam
      else if st.state = .sealed then s.refuse t .streamSealed
      else s.stepsFiveSix t r env := by
  rw [State.startKind, hk]
  show s.startAppend t r env = _
  rw [State.startAppend, hp, hparse]

theorem State.startKind_trim {id : Byte} {n : Word} (hk : r.kind = .trim) (hp : r.params = id :: be32 n.toNat)
    (hid : id.toNat < 16) : s.startKind t r env =
      let st := t.work.tables.stream id.toNat
      if st.state ≠ .absent ∧ st.next < n.toNat then s.refuse t .badParam
      else if t.work.guardEngaged env.guardHigh then s.refuse t .guarded
      else if st.state = .absent then s.refuse t .streamAbsent
      else if st.hold then s.refuse t .held
      else s.stepsFiveSix t r env := by
  rw [State.startKind, hk]
  show s.startTrim t r env = _
  rw [State.startTrim, hp, parseIdNumber_be32 id n hid]

theorem State.startKind_create {params : List Byte} {id : Nat} {x : Machine.Stream} (hk : r.kind = .createStream)
    (hp : r.params = params) (hparse : parseCreate params = some (id, x)) : s.startKind t r env =
      if (t.work.tables.stream id).state ≠ .absent then s.refuse t .streamExists else s.stepsFiveSix t r env := by
  rw [State.startKind, hk]
  show s.startCreate t r env = _
  rw [State.startCreate, hp, hparse]

theorem State.startKind_delete {id : Byte} (hk : r.kind = .deleteStream) (hp : r.params = [id]) (hid : id.toNat < 16) :
    s.startKind t r env =
      let st := t.work.tables.stream id.toNat
      if !r.armed then s.refuse t .notArmed
      else if t.work.guardEngaged env.guardHigh then s.refuse t .guarded
      else if st.state = .absent then s.refuse t .streamAbsent
      else if st.hold then s.refuse t .held
      else s.stepsFiveSix t r env := by
  rw [State.startKind, hk]
  show s.startDelete t r env = _
  rw [State.startDelete, hp, parseStreamId_of_lt hid]

theorem State.startKind_seal {id : Byte} (hk : r.kind = .sealStream) (hp : r.params = [id]) (hid : id.toNat < 16) :
    s.startKind t r env =
      let st := t.work.tables.stream id.toNat
      if st.state = .absent then s.refuse t .streamAbsent
      else if st.state = .sealed then s.refuse t .streamSealed
      else s.stepsFiveSix t r env := by
  rw [State.startKind, hk]
  show s.startSeal t r env = _
  rw [State.startSeal, hp, parseStreamId_of_lt hid]

theorem State.startKind_setHold {id : Byte} (hk : r.kind = .setHold) (hp : r.params = [id]) (hid : id.toNat < 16) :
    s.startKind t r env =
      let st := t.work.tables.stream id.toNat
      if st.state = .absent then s.refuse t .streamAbsent
      else if st.hold then s.complete t .ok [id, 0x01]
      else s.stepsFiveSix t r env := by
  rw [State.startKind, hk]
  show s.startSetHold t r env = _
  rw [State.startSetHold, hp, parseStreamId_of_lt hid]
  dsimp only
  rw [byteOf_toNat]

theorem State.startKind_clearHold {id : Byte} (hk : r.kind = .clearHold) (hp : r.params = [id]) (hid : id.toNat < 16) :
    s.startKind t r env =
      let st := t.work.tables.stream id.toNat
      if t.work.guardEngaged env.guardHigh then s.refuse t .guarded
      else if st.state = .absent then s.refuse t .streamAbsent
      else if !st.hold then s.complete t .ok [id, 0x00]
      else s.stepsFiveSix t r env := by
  rw [State.startKind, hk]
  show s.startClearHold t r env = _
  rw [State.startClearHold, hp, parseStreamId_of_lt hid]
  dsimp only
  rw [byteOf_toNat]

theorem State.startKind_format (hk : r.kind = .format) (hp : r.params = []) : s.startKind t r env =
      if !r.armed then s.refuse t .notArmed
      else if t.work.guardEngaged env.guardHigh then s.refuse t .guarded
      else if t.work.tables.streams.any Stream.hold then s.refuse t .held
      else s.stepsFiveSix t r env := by
  rw [State.startKind, hk]
  show s.startFormat t r env = _
  rw [State.startFormat, hp]
  rfl

theorem State.startKind_option {params : List Byte} {code : Nat} {v : Half} (hk : r.kind = .setOption) (hp : r.params = params)
    (hparse : parseSetOption params = some (code, v)) : s.startKind t r env =
      if optionGuarded t.work env.guardHigh code v then s.refuse t .guarded else s.stepsFiveSix t r env := by
  rw [State.startKind, hk]
  show s.startOption t r env = _
  rw [State.startOption, hp, hparse]

theorem State.startKind_commit (hk : r.kind = .commitProfiles) (hp : r.params = []) : s.startKind t r env =
      if !r.armed then s.refuse t .notArmed
      else if t.work.guardEngaged env.guardHigh then s.refuse t .guarded
      else if t.work.fuse.bank = .bUsed then s.refuse t .noBank
      else s.stepsFiveSix t r env := by
  rw [State.startKind, hk]
  show s.startCommit t r env = _
  rw [State.startCommit, hp]
  rfl

theorem State.startKind_label {label : List Byte} (hk : r.kind = .setOwnerLabel) (hp : r.params = label)
    (hlen : label.length = 16) : s.startKind t r env =
      if !r.armed then s.refuse t .notArmed
      else if t.work.fuse.labelState ≠ .absent then s.refuse t .fuseSpent
      else s.stepsFiveSix t r env := by
  rw [State.startKind, hk]
  show s.startLabel t r env = _
  rw [State.startLabel, hp, parseLabel, if_pos hlen]

theorem State.startKind_fixGuard (hk : r.kind = .fixGuard) (hp : r.params = []) : s.startKind t r env =
      if !r.armed then s.refuse t .notArmed
      else if t.work.fuse.guardFixed then s.refuse t .fuseSpent
      else s.stepsFiveSix t r env := by
  rw [State.startKind, hk]
  show s.startFixGuard t r env = _
  rw [State.startFixGuard, hp]
  rfl

theorem State.startKind_writeProfile {params : List Byte} {x : Nat × Profile} (hk : r.kind = .writeProfile)
    (hp : r.params = params) (hparse : parseWriteProfile params = some x) (hguard : t.work.guardEngaged env.guardHigh = true) :
    s.startKind t r env = s.refuse t .guarded := by
  rw [State.startKind, hk]
  show s.startWriteProfile t r.params env = _
  rw [State.startWriteProfile, hp, hparse]
  exact if_pos hguard

end Checks

/-- The latch arms a request of its own pair (R141). -/
theorem armMatches_pair {latch : Option ArmPair} {k : Kind} {id : Byte} {params : List Byte} (h : latch = some ⟨k, id⟩)
    (hk : k.isArmed = true) (hid : k = .deleteStream → params.head? = some id) : armMatches latch k params = true := by
  rw [h, armMatches_eq_decide, decide_eq_true_eq]
  refine ⟨?_, _, rfl, rfl, hid⟩
  revert hk
  cases k <;> decide

/-- A latch of another kind arms nothing (R141). -/
theorem armMatches_other {latch : Option ArmPair} {k : Kind} (h : ∀ x, latch ≠ some ⟨k, x⟩) (params : List Byte) :
    armMatches latch k params = false := by
  rw [armMatches_eq_decide, decide_eq_false_iff_not]
  rintro ⟨-, p, hp, rfl, -⟩
  exact h p.id hp

/-- A latch that names another stream does not arm a DELETE_STREAM (R141). -/
theorem armMatches_otherStream {latch : Option ArmPair} {id : Byte} (h : latch ≠ some ⟨.deleteStream, id⟩) :
    armMatches latch .deleteStream [id] = false := by
  rw [armMatches_eq_decide, decide_eq_false_iff_not]
  rintro ⟨-, p, hp, hk, hid⟩
  obtain rfl : id = p.id := Option.some.inj (hid rfl)
  exact h (hp.trans (congrArg some (by cases p; cases hk; rfl)))

/-! ### Refusals -/

/-- Step 5 refuses in the read-only condition (R39, R63). -/
theorem State.stepsFiveSix_readOnly (s : State) (t : Machine.Task) (r : Request) (env : Env)
    (h : t.work.cat.readOnly = true) : s.stepsFiveSix t r env = s.refuse t .readOnly := if_pos h

/-- Step 6 with a sample that is not due (R39, R125). -/
theorem State.stepsFiveSix_notDue (s : State) (t : Machine.Task) (r : Request) (env : Env)
    (hro : t.work.cat.readOnly = false) (hdue : t.work.due = false) : s.stepsFiveSix t r env = s.afterRefresh t r := by
  simp [State.stepsFiveSix, hro, hdue]

theorem State.afterRefresh_inhibited (s : State) (t : Machine.Task) (r : Request) (h : t.work.permits = false) :
    s.afterRefresh t r = s.refuse t .tempInhibit := by simp [State.afterRefresh, h]

/-- What a request that reaches steps 5 and 6 is refused there. -/
theorem ReachesStepSix.refuses {s : State} {tag : Byte} {env : Env} {i : Instr} {k : Kind} {ps : List Byte} {armed : Bool}
    (h : ReachesStepSix s tag env i k ps armed) (hacc : Accepts s tag) (hidle : EngineIdle s) {st : Status}
    (hs : ∀ (P : State) (t : Machine.Task) (r : Request), t.work = s.committed → P.stepsFiveSix t r env = P.refuse t st) :
    ∃ t, exec i s = .next t ∧ Refused s t k tag ps armed st := by
  obtain ⟨hexec, harm, hlen, hmedia, hpasses⟩ := h.passes
  refine ⟨_, hexec s, CompletedAtOnce.refused (hacc.completes hidle hmedia hlen harm rfl fun j _ => ?_)⟩
  have hrequest : s.newRequest k tag ps = ⟨tag, k, ps, armed, s.nextAcceptance⟩ := by rw [State.newRequest, harm]
  rw [hrequest, hpasses _ _ _ rfl rfl]
  exact hs _ _ _ rfl

theorem optionGuarded_period {c : Committed} {pin : Bool} (h : c.guardEngaged pin = true) (v : Half) :
    optionGuarded c pin 7 v = true := by rw [optionGuarded, h]; rfl

theorem optionGuarded_mode {c : Committed} {pin : Bool} (h : c.guardEngaged pin = true) {v : Half}
    (hv : v = 0x0000 ∨ c.fuse.guardA = .blown ∨ c.fuse.guardB = .blown) : optionGuarded c pin 1 v = true := by
  have hmode : (v != 0x0001 || c.fuse.guardFixed) = true := by
    rw [Bool.or_eq_true]
    exact hv.imp (fun hv => by rw [hv]; rfl) (FuseCopies.guardFixed_iff _).mpr
  rw [optionGuarded, h, hmode]
  rfl

/-- Settles O51: each refusal by the checks of its kind, in their order. -/
theorem refusalsChangeNothing : Obligations.RefusalsChangeNothing := by
  refine ⟨?malformed, ?stepsFiveSix, ?guarded, ?notArmed, ?state, ?unguarded⟩
  case malformed =>
    intro s tag params env k armed hmedia hacc hidle hlen hbad harmed
    refine hacc.refuses hidle hmedia hlen (armed := armed) ?_ fun P t r hwork hk hp _ =>
      P.startKind_malformed t (hk ▸ hmedia) env (by rw [hwork, hk, hp]; exact hbad)
    rw [armMatches_eq_decide, Bool.eq_iff_iff, decide_eq_true_eq]
    exact harmed.symm
  case stepsFiveSix =>
    intro s tag env c k params armed hacc hidle hreaches
    refine ⟨fun hro => hreaches.refuses hacc hidle fun P t r hwork => ?_,
      fun hro hdue hinhibit => hreaches.refuses hacc hidle fun P t r hwork => ?_⟩
    · exact P.stepsFiveSix_readOnly t r env (hwork ▸ hro)
    · rw [P.stepsFiveSix_notDue t r env (hwork ▸ hro) (hwork ▸ hdue), P.afterRefresh_inhibited t r (hwork ▸ hinhibit)]
  case guarded =>
    intro s tag id env hacc hidle hguard hid
    refine ⟨fun n hn => ?trim, fun hlatch => ?delete, fun hlatch => ?format, ?clearHold, fun ps hps => ?writeProfile,
      fun hlatch => ?commit, fun v hv => ?period, fun v hv hfixed => ?mode⟩
    case trim =>
      refine hacc.refuses hidle (k := .trim) rfl (params := id :: be32 n.toNat) (show 5 ≤ 520 by decide)
        (armMatches_unarmed _ _ _ rfl) fun P t r hwork hk hp _ => ?_
      rw [P.startKind_trim t env hk hp hid, hwork]
      dsimp only
      rw [if_neg (fun h => hn.elim h.1 (Nat.not_le.mpr h.2)), if_pos hguard]
    case delete =>
      refine hacc.refuses hidle (k := .deleteStream) rfl (params := [id]) (show 1 ≤ 520 by decide)
        (armMatches_pair hlatch rfl fun _ => rfl) fun P t r hwork hk hp harmed => ?_
      rw [P.startKind_delete t env hk hp hid, hwork, harmed]
      exact if_pos hguard
    case format =>
      refine hacc.refuses hidle (k := .format) rfl (params := []) (Nat.zero_le _)
        (armMatches_pair hlatch rfl fun h => absurd h (by decide)) fun P t r hwork hk hp harmed => ?_
      rw [P.startKind_format t env hk hp, hwork, harmed]
      exact if_pos hguard
    case clearHold =>
      refine hacc.refuses hidle (k := .clearHold) rfl (params := [id]) (show 1 ≤ 520 by decide)
        (armMatches_unarmed _ _ _ rfl) fun P t r hwork hk hp _ => ?_
      rw [P.startKind_clearHold t env hk hp hid, hwork]
      exact if_pos hguard
    case writeProfile =>
      obtain ⟨hlen, x, hparse⟩ := parseWriteProfile_of_not_malformed hps
      exact hacc.refuses hidle (k := .writeProfile) rfl (params := ps) (show ps.length ≤ 520 by omega)
        (armMatches_unarmed _ _ _ rfl) fun P t r hwork hk hp _ =>
          P.startKind_writeProfile t env hk hp hparse (hwork ▸ hguard)
    case commit =>
      refine hacc.refuses hidle (k := .commitProfiles) rfl (params := []) (Nat.zero_le _)
        (armMatches_pair hlatch rfl fun h => absurd h (by decide)) fun P t r hwork hk hp harmed => ?_
      rw [P.startKind_commit t env hk hp, hwork, harmed]
      exact if_pos hguard
    case period =>
      have hallowed : SettingAllowed (0x07 : Byte).toNat v.toNat := by
        have hvalue : v.toNat ∈ [1, 10, 100, 1000] := by
          simp only [List.mem_cons, List.not_mem_nil, or_false] at hv ⊢
          rcases hv with rfl | rfl | rfl | rfl <;> decide
        exact .inr (.inr (.inr (.inr (.inr (.inr (.inl ⟨rfl, hvalue⟩))))))
      refine hacc.refuses hidle (k := .setOption) rfl (params := 0x07 :: be16 v.toNat) (show 3 ≤ 520 by decide)
        (armMatches_unarmed _ _ _ rfl) fun P t r hwork hk hp _ => ?_
      rw [P.startKind_option t env hk hp (parseSetOption_be16 hallowed), hwork]
      exact if_pos (optionGuarded_period hguard v)
    case mode =>
      refine hacc.refuses hidle (k := .setOption) rfl (params := 0x01 :: be16 v.toNat) (show 3 ≤ 520 by decide)
        (armMatches_unarmed _ _ _ rfl) fun P t r hwork hk hp _ => ?_
      rw [P.startKind_option t env hk hp (parseSetOption_be16 (.inl ⟨rfl, hv⟩)), hwork]
      exact if_pos (optionGuarded_mode hguard hfixed)
  case notArmed =>
    intro s tag id label env hacc hidle hid hlabel
    refine ⟨fun hlatch => ?delete, fun hlatch => ?format, fun hlatch => ?commit, fun hlatch => ?label, fun hlatch => ?fixGuard⟩
    case delete =>
      refine hacc.refuses hidle (k := .deleteStream) rfl (params := [id]) (show 1 ≤ 520 by decide)
        (armMatches_otherStream hlatch) fun P t r _ hk hp harmed => ?_
      rw [P.startKind_delete t env hk hp hid, harmed]
      rfl
    case format =>
      refine hacc.refuses hidle (k := .format) rfl (params := []) (Nat.zero_le _) (armMatches_other hlatch _)
        fun P t r _ hk hp harmed => ?_
      rw [P.startKind_format t env hk hp, harmed]
      rfl
    case commit =>
      refine hacc.refuses hidle (k := .commitProfiles) rfl (params := []) (Nat.zero_le _) (armMatches_other hlatch _)
        fun P t r _ hk hp harmed => ?_
      rw [P.startKind_commit t env hk hp, harmed]
      rfl
    case label =>
      refine hacc.refuses hidle (k := .setOwnerLabel) rfl (params := label) (show label.length ≤ 520 by omega)
        (armMatches_other hlatch _) fun P t r _ hk hp harmed => ?_
      rw [P.startKind_label t env hk hp hlabel, harmed]
      rfl
    case fixGuard =>
      refine hacc.refuses hidle (k := .fixGuard) rfl (params := []) (Nat.zero_le _) (armMatches_other hlatch _)
        fun P t r _ hk hp harmed => ?_
      rw [P.startKind_fixGuard t env hk hp, harmed]
      rfl
  case state =>
    intro s tag id env hacc hidle hid
    refine ⟨fun marker payload hps => ?append, fun habsent => ⟨?sealAbsent, ?holdAbsent⟩, fun hsealed => ?sealSealed,
      fun hlive fields hps => ?create, fun hlive hhold => ?holdOn, fun label hlen hlatch hspent => ?label,
      fun hlatch hfixed => ?fixGuard⟩
    case append =>
      obtain ⟨⟨m, hparse⟩, hroom, hpay⟩ := parseAppend_of_not_malformed hps
      have hlen : (id :: marker :: payload).length ≤ maxParams := by
        simp only [List.length_cons, maxParams]; omega
      refine ⟨fun habsent => ?_, fun hsealed => ?_⟩
      all_goals
        refine hacc.refuses hidle (k := .append) rfl hlen (armMatches_unarmed _ _ _ rfl) fun P t r hwork hk hp _ => ?_
        rw [P.startKind_append t env hk hp hparse, hwork]
        dsimp only
      · rw [if_pos habsent]
      · have hlive : (s.committed.tables.stream id.toNat).state ≠ .absent := by rw [hsealed]; decide
        rw [if_neg hlive, if_neg (Nat.not_lt.mpr (hroom hlive)), if_pos hsealed]
    case sealAbsent =>
      refine hacc.refuses hidle (k := .sealStream) rfl (params := [id]) (show 1 ≤ 520 by decide)
        (armMatches_unarmed _ _ _ rfl) fun P t r hwork hk hp _ => ?_
      rw [P.startKind_seal t env hk hp hid, hwork]
      exact if_pos habsent
    case holdAbsent =>
      refine hacc.refuses hidle (k := .setHold) rfl (params := [id]) (show 1 ≤ 520 by decide)
        (armMatches_unarmed _ _ _ rfl) fun P t r hwork hk hp _ => ?_
      rw [P.startKind_setHold t env hk hp hid, hwork]
      exact if_pos habsent
    case sealSealed =>
      refine hacc.refuses hidle (k := .sealStream) rfl (params := [id]) (show 1 ≤ 520 by decide)
        (armMatches_unarmed _ _ _ rfl) fun P t r hwork hk hp _ => ?_
      rw [P.startKind_seal t env hk hp hid, hwork]
      dsimp only
      rw [if_neg (by rw [hsealed]; decide), if_pos hsealed]
    case create =>
      obtain ⟨hlen, x, hparse⟩ := parseCreate_of_not_malformed hps
      refine hacc.refuses hidle (k := .createStream) rfl (params := id :: fields)
        (hlen.trans (show 18 ≤ 520 by decide)) (armMatches_unarmed _ _ _ rfl) fun P t r hwork hk hp _ => ?_
      rw [P.startKind_create t env hk hp hparse, hwork]
      exact if_pos hlive
    case holdOn =>
      refine hacc.answersAtOnce hidle (k := .setHold) rfl (params := [id]) (show 1 ≤ 520 by decide)
        (armMatches_unarmed _ _ _ rfl) fun P t r hwork hk hp _ => ?_
      rw [P.startKind_setHold t env hk hp hid, hwork]
      dsimp only
      rw [if_neg hlive, if_pos hhold]
    case label =>
      refine hacc.refuses hidle (k := .setOwnerLabel) rfl (params := label) (show label.length ≤ 520 by omega)
        (armMatches_pair hlatch rfl fun h => absurd h (by decide)) fun P t r hwork hk hp harmed => ?_
      rw [P.startKind_label t env hk hp hlen, hwork, harmed]
      exact if_pos hspent
    case fixGuard =>
      refine hacc.refuses hidle (k := .fixGuard) rfl (params := []) (Nat.zero_le _)
        (armMatches_pair hlatch rfl fun h => absurd h (by decide)) fun P t r hwork hk hp harmed => ?_
      rw [P.startKind_fixGuard t env hk hp, hwork, harmed]
      exact if_pos ((FuseCopies.guardFixed_iff _).mpr hfixed)
  case unguarded =>
    intro s tag id env hacc hidle hid hguard
    have hopen : ¬ s.committed.guardEngaged env.guardHigh = true := by rw [hguard]; decide
    have hheld (hhold : (s.committed.tables.stream id.toNat).hold = false) :
        ¬ (s.committed.tables.stream id.toNat).hold = true := by rw [hhold]; decide
    refine ⟨fun habsent => ⟨fun n => ?trimAbsent, ?clearAbsent, fun hlatch => ?deleteAbsent⟩,
      fun hlive hhold => ⟨fun n hn => ?trimHeld, fun hlatch => ?deleteHeld⟩, fun hlive hhold => ?clearOff,
      fun hlatch hhold => ?formatHeld, fun hlatch hbank => ?noBank⟩
    case trimAbsent =>
      refine hacc.refuses hidle (k := .trim) rfl (params := id :: be32 n.toNat) (show 5 ≤ 520 by decide)
        (armMatches_unarmed _ _ _ rfl) fun P t r hwork hk hp _ => ?_
      rw [P.startKind_trim t env hk hp hid, hwork]
      dsimp only
      rw [if_neg (fun h => h.1 habsent), if_neg hopen, if_pos habsent]
    case clearAbsent =>
      refine hacc.refuses hidle (k := .clearHold) rfl (params := [id]) (show 1 ≤ 520 by decide)
        (armMatches_unarmed _ _ _ rfl) fun P t r hwork hk hp _ => ?_
      rw [P.startKind_clearHold t env hk hp hid, hwork]
      dsimp only
      rw [if_neg hopen, if_pos habsent]
    case deleteAbsent =>
      refine hacc.refuses hidle (k := .deleteStream) rfl (params := [id]) (show 1 ≤ 520 by decide)
        (armMatches_pair hlatch rfl fun _ => rfl) fun P t r hwork hk hp harmed => ?_
      rw [P.startKind_delete t env hk hp hid, hwork, harmed]
      exact (if_neg hopen).trans (if_pos habsent)
    case trimHeld =>
      refine hacc.refuses hidle (k := .trim) rfl (params := id :: be32 n.toNat) (show 5 ≤ 520 by decide)
        (armMatches_unarmed _ _ _ rfl) fun P t r hwork hk hp _ => ?_
      rw [P.startKind_trim t env hk hp hid, hwork]
      dsimp only
      rw [if_neg (fun h => Nat.not_le.mpr h.2 hn), if_neg hopen, if_neg hlive, if_pos hhold]
    case deleteHeld =>
      refine hacc.refuses hidle (k := .deleteStream) rfl (params := [id]) (show 1 ≤ 520 by decide)
        (armMatches_pair hlatch rfl fun _ => rfl) fun P t r hwork hk hp harmed => ?_
      rw [P.startKind_delete t env hk hp hid, hwork, harmed]
      exact (if_neg hopen).trans ((if_neg hlive).trans (if_pos hhold))
    case clearOff =>
      refine hacc.answersAtOnce hidle (k := .clearHold) rfl (params := [id]) (show 1 ≤ 520 by decide)
        (armMatches_unarmed _ _ _ rfl) fun P t r hwork hk hp _ => ?_
      rw [P.startKind_clearHold t env hk hp hid, hwork]
      dsimp only
      rw [if_neg hopen, if_neg hlive, hhold]
      rfl
    case formatHeld =>
      refine hacc.refuses hidle (k := .format) rfl (params := []) (Nat.zero_le _)
        (armMatches_pair hlatch rfl fun h => absurd h (by decide)) fun P t r hwork hk hp harmed => ?_
      rw [P.startKind_format t env hk hp, hwork, harmed]
      exact (if_neg hopen).trans (if_pos ((Tables.any_hold_iff _).mpr hhold))
    case noBank =>
      refine hacc.refuses hidle (k := .commitProfiles) rfl (params := []) (Nat.zero_le _)
        (armMatches_pair hlatch rfl fun h => absurd h (by decide)) fun P t r hwork hk hp harmed => ?_
      rw [P.startKind_commit t env hk hp, hwork, harmed]
      exact (if_neg hopen).trans (if_pos hbank)

end Sys2Proof.Machine
end

section
/-! The work of a modifying request, seen as a function of its task: it begins one operation or completes, it looks at the
device state, the catalogue's segments and the time alone, and events that wait in the task stay ahead of its own. So what a
request does behind a refresh can be compared with what it does without one. -/

namespace Sys2Proof.Machine

/-- The task with events waiting ahead of its own (R181). -/
def Task.preceded (t : Machine.Task) (evs : List Raised) : Machine.Task := { t with events := evs ++ t.events }

/-- How the work of a task ends: an operation is in progress for it, or it is complete (R37, R41). -/
inductive WorkEnd where
  | begun (t : Machine.Task) (op : Operation) (stage : Stage)
  | completed (t : Machine.Task) (st : Status) (payload : List Byte)

/-- The task as its work left it. -/
def WorkEnd.task : WorkEnd → Machine.Task
  | .begun t _ _ => t
  | .completed t _ _ => t

/-- The state that the work leaves. -/
def WorkEnd.apply (s : State) : WorkEnd → State
  | .begun t op stage => s.begin t op stage
  | .completed t st payload => s.complete t st payload

/-- The same end with events waiting ahead in its task. -/
def WorkEnd.preceded (evs : List Raised) : WorkEnd → WorkEnd
  | .begun t op stage => .begun (t.preceded evs) op stage
  | .completed t st payload => .completed (t.preceded evs) st payload

/-- What the work of a request looks at is the same in both states. -/
structure SeesSame (s u : State) : Prop where
  dev : u.dev = s.dev
  catSegs : u.catSegs = s.catSegs
  stamp : u.stamp = s.stamp

theorem SeesSame.refl (s : State) : SeesSame s s := ⟨rfl, rfl, rfl⟩

/-- The work `f` of this task ends one way in every state that looks the same, events ahead of the task's own making no
difference, and changes nothing of the working copy but the catalogue position. -/
def WorksTo (s : State) (t : Machine.Task) (f : State → Machine.Task → State) : Prop :=
  ∃ e : WorkEnd, e.task.owner = t.owner ∧ e.task.work = { t.work with cat := e.task.work.cat } ∧
    ∀ (u : State) (evs : List Raised), SeesSame s u → f u (t.preceded evs) = (e.preceded evs).apply u

variable {s : State} {t : Machine.Task} {f g : State → Machine.Task → State}

theorem WorksTo.congr (h : WorksTo s t g) (heq : ∀ u evs, SeesSame s u → f u (t.preceded evs) = g u (t.preceded evs)) :
    WorksTo s t f := by
  obtain ⟨e, howner, hwork, hend⟩ := h
  exact ⟨e, howner, hwork, fun u evs hu => (heq u evs hu).trans (hend u evs hu)⟩

theorem WorksTo.begins (op : Operation) (stage : Stage) : WorksTo s t (fun u t => u.begin t op stage) :=
  ⟨.begun t op stage, rfl, rfl, fun _ _ _ => rfl⟩

theorem WorksTo.completes (st : Status) (payload : List Byte) : WorksTo s t (fun u t => u.complete t st payload) :=
  ⟨.completed t st payload, rfl, rfl, fun _ _ _ => rfl⟩

/-! ### One entry -/

/-- The writer's first move on an entry: an operation, or no position is left; its task is as it was or has entered the
read-only condition (R60, R61, R63). -/
theorem writeHead_preceded (segs : List CatSegment) (t : Machine.Task) (e : Entry) (rest : List CatAction) (after : After) :
    ∃ t' : Machine.Task, t'.owner = t.owner ∧ t'.work = { t.work with cat := t'.work.cat } ∧
      ((∃ op w, ∀ evs, writeHead segs (t.preceded evs) e rest after = .operate (t'.preceded evs) op w) ∨
        ∀ evs, writeHead segs (t.preceded evs) e rest after = .full (t'.preceded evs)) := by
  have hprogram (t' : Machine.Task) : (∃ op w, ∀ evs, programEntry (t'.preceded evs) e rest after = .operate (t'.preceded evs) op w) ∨
      ∀ evs, programEntry (t'.preceded evs) e rest after = .full (t'.preceded evs) := by
    cases hactive : t'.work.cat.active with
    | none =>
      refine .inr fun evs => ?_
      have : (t'.preceded evs).work.cat.active = none := hactive
      rw [programEntry, this]
    | some k =>
      have hsome (evs : List Raised) : (t'.preceded evs).work.cat.active = some k := hactive
      by_cases hfill : t'.work.cat.fill < cataloguePositions
      · refine .inl ⟨.catEntry k t'.work.cat.fill e t'.work.programTiming, ⟨.write e :: rest, none, after⟩, fun evs => ?_⟩
        rw [programEntry, hsome]
        exact if_pos hfill
      · refine .inr fun evs => ?_
        rw [programEntry, hsome]
        exact if_neg hfill
  by_cases hneeds : t.work.cat.needsCompaction = true
  · have hhead (evs : List Raised) : writeHead segs (t.preceded evs) e rest after =
        match compactionTargets t.work.tables.usable (.write e :: rest) t.work.cat.active with
        | [] => programEntry (t.enterReadOnly.preceded evs) e rest after
        | k :: ks => .operate (t.preceded evs) (targetOperation segs t k).1
            ⟨.write e :: rest, some ⟨k :: ks, [], (targetOperation segs t k).2⟩, after⟩ := if_pos hneeds
    cases htargets : compactionTargets t.work.tables.usable (.write e :: rest) t.work.cat.active with
    | nil =>
      refine ⟨t.enterReadOnly, rfl, rfl, ?_⟩
      simp only [hhead, htargets]
      exact hprogram t.enterReadOnly
    | cons k ks =>
      refine ⟨t, rfl, rfl, .inl ⟨(targetOperation segs t k).1,
        ⟨.write e :: rest, some ⟨k :: ks, [], (targetOperation segs t k).2⟩, after⟩, fun evs => ?_⟩⟩
      rw [hhead, htargets]
  · refine ⟨t, rfl, rfl, ?_⟩
    have hhead (evs : List Raised) : writeHead segs (t.preceded evs) e rest after = programEntry (t.preceded evs) e rest after :=
      if_neg hneeds
    simp only [hhead]
    exact hprogram t

theorem State.entryUnwritten_of_request {t : Machine.Task} {i : Nat} {r : Request} (h : t.owner = .request i r) (s : State)
    (after : After) : s.entryUnwritten t after = s.complete t .mediaFault
      (match appendOf after with | some a => appendRefusal t a | none => []) := by
  unfold State.entryUnwritten
  rw [h]
  cases appendOf after <;> rfl

theorem worksTo_writeEntry {i : Nat} {r : Request} (h : t.owner = .request i r) (e : Entry) (after : After) :
    WorksTo s t (fun u t => u.writeEntry t e after) := by
  obtain ⟨t', howner, hwork, ⟨op, w, hhead⟩ | hhead⟩ := writeHead_preceded s.catSegs t e [] after
  · refine ⟨.begun t' op (.catalogue w), howner, hwork, fun u evs hu => ?_⟩
    show u.writeEntry (t.preceded evs) e after = _
    rw [State.writeEntry, hu.catSegs, hhead]
    rfl
  · refine ⟨.completed t' .mediaFault (match appendOf after with | some a => appendRefusal t' a | none => []), howner, hwork,
      fun u evs hu => ?_⟩
    show u.writeEntry (t.preceded evs) e after = _
    rw [State.writeEntry, hu.catSegs, hhead]
    exact State.entryUnwritten_of_request (t := t'.preceded evs) (howner.trans h) u after

/-! ### A slot for a record -/

theorem worksTo_startBody (a : AppendData) (seg : Nat) : WorksTo s t (fun u t => u.startBody t a seg) :=
  ⟨.begun t (.program (bodyCells (t.streamOf a) a (slotBase seg (t.streamOf a).slotSize (t.streamOf a).writePos))
    t.work.programTiming) (.body a seg (t.streamOf a).writePos), rfl, rfl, fun _ _ _ => rfl⟩

theorem worksTo_appendFails (a : AppendData) (st : Status) : WorksTo s t (fun u t => u.appendFails t a st) :=
  ⟨.completed t st (appendRefusal t a), rfl, rfl, fun _ _ _ => rfl⟩

theorem worksTo_poolEmpty (a : AppendData) : WorksTo s t (fun u t => u.poolEmpty t a) := by
  refine ⟨.completed (t.raise [raised .poolEmpty s.stamp a.id (t.streamOf a).next]) .poolEmpty (appendRefusal t a), rfl, rfl,
    fun u evs hu => ?_⟩
  show u.appendFails ((t.preceded evs).raise [raised .poolEmpty u.stamp a.id (t.streamOf a).next]) a .poolEmpty = _
  rw [hu.stamp, Task.raise, Task.preceded, List.append_assoc]
  rfl

theorem worksTo_evict {i : Nat} {r : Request} (h : t.owner = .request i r) (a : AppendData) :
    WorksTo s t (fun u t => u.evict t a) := by
  have hsegs (u : State) (evs : List Raised) : u.evict (t.preceded evs) a =
      match (t.streamOf a).segs with
      | oldest :: second :: _ => u.writeEntry (t.preceded evs)
          (.evicted a.id (max (t.streamOf a).oldest second.firstSeq) [oldest.seg])
          (.allocate a (max (t.streamOf a).oldest second.firstSeq - (t.streamOf a).oldest))
      | _ => u.appendFails (t.preceded evs) a .poolEmpty := rfl
  match hlist : (t.streamOf a).segs with
  | [] | [_] => exact (worksTo_appendFails a .poolEmpty).congr fun u evs _ => by rw [hsegs, hlist]
  | oldest :: second :: _ => exact (worksTo_writeEntry h _ _).congr fun u evs _ => by rw [hsegs, hlist]

theorem worksTo_allocate {i : Nat} {r : Request} (h : t.owner = .request i r) (a : AppendData) :
    WorksTo s t (fun u t => u.allocate t a) := by
  have hcases (u : State) (evs : List Raised) : u.allocate (t.preceded evs) a =
      match t.work.tables.chooseFree with
      | some seg => u.begin (t.preceded evs) (.program (cellsAt (segBase seg) (descriptorBytes a.id (t.streamOf a).nextLink
          (t.streamOf a).slotSize (t.streamOf a).next)) t.work.programTiming) (.descriptor a seg)
      | none =>
        match t.work.tables.dirty with
        | d :: _ => u.begin (t.preceded evs) (.erase d t.work.eraseTiming) (.forcedErase a d)
        | [] => if (t.streamOf a).mayEvict && decide (2 ≤ (t.streamOf a).segs.length) then u.evict (t.preceded evs) a
            else u.poolEmpty (t.preceded evs) a := rfl
  cases hfree : t.work.tables.chooseFree with
  | some seg => exact (WorksTo.begins _ _).congr fun u evs _ => by rw [hcases, hfree]
  | none =>
    cases hdirty : t.work.tables.dirty with
    | cons d ds => exact (WorksTo.begins _ _).congr fun u evs _ => by rw [hcases, hfree, hdirty]
    | nil =>
      by_cases hevict : ((t.streamOf a).mayEvict && decide (2 ≤ (t.streamOf a).segs.length)) = true
      · exact (worksTo_evict h a).congr fun u evs _ => by rw [hcases, hfree, hdirty]; exact if_pos hevict
      · exact (worksTo_poolEmpty a).congr fun u evs _ => by rw [hcases, hfree, hdirty]; exact if_neg hevict

theorem worksTo_newSegment {i : Nat} {r : Request} (h : t.owner = .request i r) (a : AppendData) :
    WorksTo s t (fun u t => u.newSegment t a) := by
  by_cases hquota : (t.streamOf a).quota = 0 ∨ (t.streamOf a).segs.length < (t.streamOf a).quota
  · exact (worksTo_allocate h a).congr fun u evs _ => if_pos hquota
  · by_cases hevict : (t.streamOf a).mayEvict = true
    · exact (worksTo_evict h a).congr fun u evs _ => (if_neg hquota).trans (if_pos hevict)
    · exact (worksTo_appendFails a .streamFull).congr fun u evs _ => (if_neg hquota).trans (if_neg hevict)

theorem worksTo_workAppend {i : Nat} {r : Request} (h : t.owner = .request i r) (id : Nat) (marker : Bool) (payload : List Byte) :
    WorksTo s t (fun u t => u.workAppend t id marker payload) := by
  obtain ⟨a, ha⟩ : ∃ a, a = captureAppend t.work s.stamp id marker payload := ⟨_, rfl⟩
  have hcases (u : State) (evs : List Raised) (hu : SeesSame s u) : u.workAppend (t.preceded evs) id marker payload =
      if (t.streamOf a).next = lastNext then u.complete (t.preceded evs) .seqExhausted []
      else
        match t.work.tables.newestOpen (t.streamOf a) with
        | some l => u.startBody (t.preceded evs) a l.seg
        | none => u.newSegment (t.preceded evs) a := by
    rw [ha, ← hu.stamp]
    rfl
  by_cases hlast : (t.streamOf a).next = lastNext
  · exact (WorksTo.completes .seqExhausted []).congr fun u evs hu => (hcases u evs hu).trans (if_pos hlast)
  · cases hopen : t.work.tables.newestOpen (t.streamOf a) with
    | some l =>
      exact (worksTo_startBody a l.seg).congr fun u evs hu => by rw [hcases u evs hu, if_neg hlast, hopen]
    | none => exact (worksTo_newSegment h a).congr fun u evs hu => by rw [hcases u evs hu, if_neg hlast, hopen]

theorem worksTo_workTrim {i : Nat} {r : Request} (h : t.owner = .request i r) (id k : Nat) :
    WorksTo s t (fun u t => u.workTrim t id k) := by
  obtain ⟨st, hst⟩ : ∃ st, st = t.work.tables.stream id := ⟨_, rfl⟩
  obtain ⟨is, his⟩ : ∃ is, is = releasedBy k st.next (st.state == .sealed) st.segs := ⟨_, rfl⟩
  have hcases (u : State) (evs : List Raised) : u.workTrim (t.preceded evs) id k =
      if k ≤ st.oldest then u.complete (t.preceded evs) .ok (be32 st.oldest ++ be16 0 ++ be16 0)
      else u.writeEntry (t.preceded evs) (.trimmed id k is) (.reply (be32 k ++ releaseCounts t.work.tables is)) := by
    rw [his, hst]; rfl
  by_cases hbelow : k ≤ st.oldest
  · exact (WorksTo.completes .ok _).congr fun u evs _ => (hcases u evs).trans (if_pos hbelow)
  · exact (worksTo_writeEntry h _ _).congr fun u evs _ => (hcases u evs).trans (if_neg hbelow)

theorem worksTo_guardFails : WorksTo s t (fun u t => u.guardFails t) :=
  ⟨.completed (t.latch alarmFuseFault) .fuseFault [], rfl, rfl, fun _ _ _ => rfl⟩

theorem worksTo_workFixGuard : WorksTo s t (fun u t => u.workFixGuard t) := by
  by_cases ha : (t.work.fuse.guardA != .failed) = true
  · exact (WorksTo.begins _ _).congr fun u evs _ => if_pos ha
  · by_cases hb : (t.work.fuse.guardB != .failed) = true
    · exact (WorksTo.begins _ _).congr fun u evs _ => (if_neg ha).trans (if_pos hb)
    · exact worksTo_guardFails.congr fun u evs _ => (if_neg ha).trans (if_neg hb)

theorem worksTo_refuse (st : Status) : WorksTo s t (fun u t => u.refuse t st) := .completes st []

/-- The work of every modifying kind (R39). -/
theorem worksTo_startWork {i : Nat} {r : Request} (h : t.owner = .request i r) (q : Request) :
    WorksTo s t (fun u t => u.startWork t q) := by
  have hparsed {α : Type} (x : Option α) (f : State → Machine.Task → α → State)
      (hf : ∀ v, WorksTo s t (fun u t => f u t v))
      (hstart : ∀ (u : State) (t : Machine.Task), u.startWork t q = x.elim (u.refuse t .badParam) (f u t)) :
      WorksTo s t (fun u t => u.startWork t q) := by
    cases x with
    | none => exact (worksTo_refuse .badParam).congr fun u evs _ => hstart _ _
    | some v => exact (hf v).congr fun u evs _ => hstart _ _
  cases hk : q.kind
  case append =>
    refine hparsed (parseAppend q.params) (fun u t v => u.workAppend t v.1 v.2.1 v.2.2)
      (fun v => worksTo_workAppend h _ _ _) fun u t => ?_
    simp only [State.startWork, hk]; cases parseAppend q.params <;> rfl
  case trim =>
    refine hparsed (parseIdNumber q.params) (fun u t v => u.workTrim t v.1 v.2) (fun v => worksTo_workTrim h _ _) fun u t => ?_
    simp only [State.startWork, hk]; cases parseIdNumber q.params <;> rfl
  case createStream =>
    refine hparsed (parseCreate q.params) (fun u t v => u.workCreate t v.1 v.2) (fun v => worksTo_writeEntry h _ _) fun u t => ?_
    simp only [State.startWork, hk]; cases parseCreate q.params <;> rfl
  case deleteStream =>
    refine hparsed (parseStreamId q.params) (fun u t v => u.workDelete t v) (fun v => ?_) fun u t => ?_
    · exact (worksTo_writeEntry h (.deleted v)
        (.reply (releaseCounts t.work.tables ((t.work.tables.stream v).segs.map SegLink.seg)))).congr fun _ _ _ => rfl
    · simp only [State.startWork, hk]; cases parseStreamId q.params <;> rfl
  case sealStream =>
    refine hparsed (parseStreamId q.params) (fun u t v => u.workSeal t v) (fun v => ?_) fun u t => ?_
    · exact (worksTo_writeEntry h (.sealed v (t.work.tables.stream v).next)
        (.reply (be32 (t.work.tables.stream v).next))).congr fun _ _ _ => rfl
    · simp only [State.startWork, hk]; cases parseStreamId q.params <;> rfl
  case setHold =>
    refine hparsed (parseStreamId q.params) (fun u t v => u.workSetHold t v) (fun v => worksTo_writeEntry h _ _) fun u t => ?_
    simp only [State.startWork, hk]; cases parseStreamId q.params <;> rfl
  case clearHold =>
    refine hparsed (parseStreamId q.params) (fun u t v => u.workClearHold t v) (fun v => worksTo_writeEntry h _ _) fun u t => ?_
    simp only [State.startWork, hk]; cases parseStreamId q.params <;> rfl
  case format =>
    have hstart (u : State) (t : Machine.Task) : u.startWork t q =
        if u.dev = .faulted then u.formatTarget t [0, 1, 2, 3] [] else u.workFormat t := by rw [State.startWork, hk]
    by_cases hdev : s.dev = .faulted
    · refine (WorksTo.begins (.catErase 0 t.work.eraseTiming) (.format [0, 1, 2, 3] [] .erasing)).congr fun u evs hu => ?_
      exact (hstart _ _).trans (if_pos (hu.dev.trans hdev))
    · refine (worksTo_writeEntry h .formatted (.formatReply ([0x00, byteOf t.work.tables.liveStreams] ++
        releaseCounts t.work.tables t.work.tables.linkedSegs))).congr fun u evs hu => ?_
      exact (hstart _ _).trans (if_neg (hu.dev ▸ hdev))
  case setOption =>
    refine hparsed (parseSetOption q.params) (fun u t v => u.workOption t v.1 v.2) (fun v => ?_) fun u t => ?_
    · exact (worksTo_writeEntry h (.setting v.1 v.2) (.option v.1 ([byteOf v.1] ++
        be16 (t.work.tables.settings.get v.1).toNat ++ be16 v.2.toNat))).congr fun _ _ _ => rfl
    · simp only [State.startWork, hk]; cases parseSetOption q.params <;> rfl
  case commitProfiles =>
    refine (WorksTo.begins (.fuseCell (if t.work.fuse.bank == .aUsed then .markerB else .markerA))
      (.bankMarker (t.work.fuse.bank == .aUsed))).congr fun u evs _ => ?_
    rw [State.startWork, hk]
    rfl
  case setOwnerLabel =>
    refine hparsed (parseLabel q.params) (fun u t v => u.workLabel t v) (fun v => WorksTo.begins _ _) fun u t => ?_
    simp only [State.startWork, hk]; cases parseLabel q.params <;> rfl
  case fixGuard => exact worksTo_workFixGuard.congr fun u evs _ => by rw [State.startWork, hk]
  all_goals exact (worksTo_refuse .badParam).congr fun u evs _ => by rw [State.startWork, hk]

end Sys2Proof.Machine
end

section
namespace Sys2Proof.Machine

/-! ### How a request's start ends -/

/-- The engine's work for this owner begins an operation or completes (R37, R41). -/
inductive EndsFor (o : Owner) (s : State) : State → Prop
  | begins (t : Machine.Task) (op : Operation) (stage : Stage) (h : t.owner = o) : EndsFor o s (s.begin t op stage)
  | completes (t : Machine.Task) (st : Status) (payload : List Byte) (h : t.owner = o) : EndsFor o s (s.complete t st payload)

section Start

variable {i : Nat} {q : Request} {t : Machine.Task} (h : t.owner = .request i q) (s : State) (r : Request) (env : Env)
include h

theorem State.startWork_ends : EndsFor (.request i q) s (s.startWork t r) := by
  obtain ⟨e, howner, -, hend⟩ := worksTo_startWork (s := s) h r
  have heq : s.startWork t r = (e.preceded []).apply s := hend s [] (.refl s)
  rw [heq]
  cases e with
  | begun t' op stage => exact .begins _ _ _ (howner.trans h)
  | completed t' st payload => exact .completes _ _ _ (howner.trans h)

theorem State.refuse_ends (st : Status) : EndsFor (.request i q) s (s.refuse t st) := .completes t st [] h

theorem State.afterRefresh_ends : EndsFor (.request i q) s (s.afterRefresh t r) := by
  unfold State.afterRefresh
  split
  · exact State.startWork_ends h s r
  · exact State.refuse_ends h s _

theorem State.stepsFiveSix_ends : EndsFor (.request i q) s (s.stepsFiveSix t r env) := by
  unfold State.stepsFiveSix
  split
  · exact State.refuse_ends h s _
  · split
    · split
      · exact .begins _ _ _ h
      · exact State.afterRefresh_ends (t := t.absorb _) h s r
      · exact State.afterRefresh_ends h s r
    · exact State.afterRefresh_ends h s r

theorem State.startReading_ends (params : List Byte) : EndsFor (.request i q) s (s.startRead t params) ∧
    EndsFor (.request i q) s (s.startReadNext t params) ∧ EndsFor (.request i q) s (s.startSeek t params) := by
  unfold State.startRead State.startReadNext State.startSeek
  dsimp only
  refine ⟨?_, ?_, ?_⟩ <;> repeat' split
  all_goals exact .completes _ _ _ h

theorem State.startThermal_ends (params : List Byte) : EndsFor (.request i q) s (s.startSample t params env) ∧
    EndsFor (.request i q) s (s.startSetTemperature t params) ∧ EndsFor (.request i q) s (s.startWriteProfile t params env) := by
  unfold State.startSample State.startSetTemperature State.startWriteProfile
  refine ⟨?_, ?_, ?_⟩ <;> repeat' split
  all_goals first | exact .completes _ _ _ h | exact .begins _ _ _ h

/-- The checks of a modifying kind refuse it, complete it, or lead on to step 5 (R39). -/
theorem State.startModifying_ends :
    (EndsFor (.request i q) s (s.startAppend t r env) ∧ EndsFor (.request i q) s (s.startTrim t r env) ∧
      EndsFor (.request i q) s (s.startCreate t r env) ∧ EndsFor (.request i q) s (s.startDelete t r env) ∧
      EndsFor (.request i q) s (s.startSeal t r env) ∧ EndsFor (.request i q) s (s.startSetHold t r env)) ∧
    EndsFor (.request i q) s (s.startClearHold t r env) ∧ EndsFor (.request i q) s (s.startFormat t r env) ∧
      EndsFor (.request i q) s (s.startOption t r env) ∧ EndsFor (.request i q) s (s.startCommit t r env) ∧
      EndsFor (.request i q) s (s.startLabel t r env) ∧ EndsFor (.request i q) s (s.startFixGuard t r env) := by
  have hsix := State.stepsFiveSix_ends h s r env
  have hdone (st : Status) (payload : List Byte) : EndsFor (.request i q) s (s.complete t st payload) := .completes t st payload h
  have hno (st : Status) : EndsFor (.request i q) s (s.refuse t st) := State.refuse_ends h s st
  unfold State.startAppend State.startTrim State.startCreate State.startDelete State.startSeal State.startSetHold
    State.startClearHold State.startFormat State.startOption State.startCommit State.startLabel State.startFixGuard
  dsimp only
  refine ⟨⟨?_, ?_, ?_, ?_, ?_, ?_⟩, ?_, ?_, ?_, ?_, ?_, ?_⟩ <;> repeat' split
  all_goals first | exact hsix | exact hno _ | exact hdone _ _

/-- A request started begins an operation or is complete (R37, R39, R41). -/
theorem State.startKind_ends : EndsFor (.request i q) s (s.startKind t r env) := by
  obtain ⟨hread, hreadNext, hseek⟩ := State.startReading_ends h s r.params
  obtain ⟨hsample, hset, hwrite⟩ := State.startThermal_ends h s env r.params
  obtain ⟨⟨happend, htrim, hcreate, hdelete, hseal, hhold⟩, hclear, hformat, hoption, hcommit, hlabel, hfix⟩ :=
    State.startModifying_ends h s r env
  unfold State.startKind
  split <;> first | assumption | exact State.refuse_ends h s _

end Start

/-- A request that completes: its context is DONE, nothing is in progress, and the link, the time, the array and the fuse
store are as they were (R41). -/
theorem State.complete_of_request {t : Machine.Task} {i : Nat} {r : Request} (h : t.owner = .request i r) (s : State) (st : Status)
    (payload : List Byte) : s.complete t st payload = { s with
      contexts := s.contexts.set i (.held r (.done s.nextCompletion st payload))
      nextCompletion := s.nextCompletion + 1
      committed := t.work
      job := none
      alarms := s.alarms ||| t.alarms
      tickPeriod := (s.commit t).tickPeriod
      dev := (s.commit t).dev
      faultedProfile := (s.commit t).faultedProfile
      reconsider := (s.commit t).reconsider
      events := (s.commit t).events
      nextEvent := (s.commit t).nextEvent
      overflow := (s.commit t).overflow
      poolLow := (s.commit t).poolLow
      poolLowArmed := (s.commit t).poolLowArmed } := by
  rw [State.complete, h]
  show (s.commit t).finish i r st payload = _
  rw [State.commit_frame]
  rfl

/-- The QUEUED context with the lowest acceptance number is the next (R37). -/
theorem nextQueued_of_oldest {cs : List Context} {i : Nat} {r : Request} (hi : cs[i]? = some (.held r .queued))
    (hmin : ∀ (j : Nat) (r' : Request), cs[j]? = some (.held r' .queued) → j ≠ i → r.acceptance < r'.acceptance) :
    nextQueued cs = some i := by
  have hmem : Context.held r .queued ∈ cs := List.mem_of_getElem? hi
  cases hlow : lowestBy Context.queuedNumber? cs 0 none with
  | none => exact absurd (((lowestBy_none _ cs 0 none).mp hlow).2 _ hmem) (by simp [Context.queuedNumber?])
  | some best =>
    obtain ⟨j, n⟩ := best
    have hnext : nextQueued cs = some j := by rw [nextQueued, hlow]; rfl
    obtain ⟨r', hj⟩ := nextQueued_spec hnext
    have hle : n ≤ r.acceptance := (lowestBy_le _ cs 0 none j n hlow).2 _ hmem _ rfl
    obtain hbest | ⟨k, c, hk, hc, hn⟩ := lowestBy_mem _ cs 0 none j n hlow
    · exact absurd hbest (by simp)
    · obtain rfl : j = k := by omega
      obtain rfl : c = .held r' .queued := Option.some.inj (hc.symm.trans hj)
      obtain rfl : r'.acceptance = n := Option.some.inj hn
      have hji : j = i := by
        by_contra hne
        exact Nat.not_lt.mpr hle (hmin j r' hj hne)
      rw [hnext, hji]

/-- Settles O55: the oldest is EXECUTING, and its work then begins an operation or completes it. -/
theorem requestStartTakesOldest : Obligations.RequestStartTakesOldest := by
  intro s env i r hreset hdev hsleep hjob hready hnone hi hmin
  have hobserve : s.observe env = { s with guardHigh := env.guardHigh } := by simp [State.observe, State.linkDecodes, hreset, hdev]
  have hexec : s.contexts.any Context.isExecuting = false := List.any_eq_false.mpr fun c hc => by simp [hnone c hc]
  have hidle : (State.idleMedia { s with guardHigh := env.guardHigh } &&
      (s.dev == DevState.running || s.dev == DevState.faulted)) = true := by
    simp [State.idleMedia, hjob, hready, hreset, hsleep, hexec, hdev]
  have hget : s.contexts.getD i .free = .held r .queued := by rw [List.getD_eq_getElem?_getD, hi]; rfl
  obtain ⟨hlt, -⟩ := List.getElem?_eq_some_iff.mp hi
  obtain ⟨u, hu⟩ : ∃ u, u = { s with guardHigh := env.guardHigh, contexts := s.contexts.set i (.held r .executing) } := ⟨_, rfl⟩
  have hstart : s.doRequestStart env = u.startKind ⟨.request i r, s.committed, [], 0⟩ r env := by
    rw [State.doRequestStart, hobserve, State.startNext, if_pos hidle]
    simp only [nextQueued_of_oldest hi hmin, hget, hu]
    rfl
  refine ⟨_, rfl, ?_⟩
  rw [hstart]
  have hother {j : Nat} (hj : j ≠ i) : u.contexts[j]? = s.contexts[j]? := by
    rw [hu]; exact List.getElem?_set_ne (Ne.symm hj)
  have hends := State.startKind_ends (t := ⟨.request i r, s.committed, [], 0⟩) rfl u r env
  generalize u.startKind ⟨.request i r, s.committed, [], 0⟩ r env = v at hends ⊢
  cases hends with
  | begins t op stage _ =>
    refine ⟨.inl ⟨?_, by simp [State.settle, State.begin], by rw [hu]; rfl, by rw [hu]; rfl⟩, fun j hj => hother hj, ?_, ?_⟩
    · rw [hu]; exact List.getElem?_set_self hlt
    · rw [hu]; exact List.length_set
    · rw [hu]; exact ⟨rfl, rfl, rfl, rfl, rfl, rfl, rfl, fun _ => rfl⟩
  | completes t st payload ht =>
    rw [State.complete_of_request ht]
    refine ⟨.inr ⟨⟨st, payload, ?_⟩, rfl, by rw [hu]; rfl⟩, fun j hj => ?_, ?_, ?_⟩
    · rw [hu]; exact List.getElem?_set_self (by simpa using hlt)
    · exact (List.getElem?_set_ne (Ne.symm hj)).trans (hother hj)
    · rw [hu]; simp [State.settle]
    · rw [hu]; exact ⟨rfl, rfl, rfl, rfl, rfl, rfl, rfl, fun _ => rfl⟩

end Sys2Proof.Machine
end

section
namespace Sys2Proof.Machine

/-! ### Requests that reach step 6 with nothing to refresh -/

/-- A request whose work begins an operation, the sample not being due (R39). -/
theorem ReachesStepSix.starts {s : State} {tag : Byte} {env : Env} {i : Instr} {k : Kind} {ps : List Byte} {armed : Bool}
    (h : ReachesStepSix s tag env i k ps armed) (hacc : Accepts s tag) (hidle : EngineIdle s) (hw : Writable s.committed)
    {op : Operation} {stage : Stage}
    (hs : ∀ (P : State) (t : Machine.Task) (r : Request), t.work = s.committed → r.kind = k → r.params = ps →
      P.startWork t r = P.begin t op stage) :
    ∃ t, exec i s = .next t ∧ Started s t k tag ps armed op stage := by
  obtain ⟨hexec, harm, hlen, hmedia, hpasses⟩ := h.passes
  refine ⟨_, hexec s, hacc.starts hidle hmedia hlen harm fun j _ => ?_⟩
  have hrequest : s.newRequest k tag ps = ⟨tag, k, ps, armed, s.nextAcceptance⟩ := by rw [State.newRequest, harm]
  rw [hrequest, hpasses _ _ _ rfl rfl, State.stepsFiveSix_of_writable _ _ _ _ hw]
  exact hs _ _ _ rfl rfl rfl

theorem BankState.marker_of_ne_bUsed {b : BankState} (h : b ≠ .bUsed) :
    (if b == .aUsed then FuseCell.markerB else .markerA) = if b = .fresh then .markerA else .markerB := by
  cases b
  case bUsed => exact absurd rfl h
  all_goals rfl

/-- FIX_GUARD begins with the attempt cell of the first cell that is not failed (R144). -/
theorem State.workFixGuard_eq (s : State) (t : Machine.Task)
    (h : ¬ (t.work.fuse.guardA = .failed ∧ t.work.fuse.guardB = .failed)) : s.workFixGuard t =
      s.begin t (.fuseCell (if t.work.fuse.guardA = .failed then .attemptB else .attemptA))
        (.guardAttempt (t.work.fuse.guardA == .failed)) := by
  unfold State.workFixGuard
  by_cases ha : t.work.fuse.guardA = .failed
  · have hb : t.work.fuse.guardB ≠ .failed := fun hb => h ⟨ha, hb⟩
    simp [ha, hb]
  · have hne : (t.work.fuse.guardA == .failed) = false := beq_false_of_ne ha
    simp [ha, hne]

/-- Settles O54: the work of each kind is its first program. -/
theorem fuseRequestsProgramMarkerFirst : Obligations.FuseRequestsProgramMarkerFirst := by
  intro s tag label env hacc hidle hw
  refine ⟨fun hlatch hguard hbank => ?commit, fun hlatch hlen hlabel => ?label, fun hlatch ha hb hfailed => ?fixGuard⟩
  case commit =>
    refine (ReachesStepSix.commit hlatch hguard hbank).starts hacc hidle hw fun P t r hwork hk _ => ?_
    rw [State.startWork, hk, ← BankState.marker_of_ne_bUsed hbank, ← hwork]
    rfl
  case label =>
    refine (ReachesStepSix.label label hlen hlatch hlabel).starts hacc hidle hw fun P t r _ hk hp => ?_
    simp only [State.startWork, hk, hp, parseLabel, hlen, if_true]
    rfl
  case fixGuard =>
    refine (ReachesStepSix.fixGuard hlatch ha hb).starts hacc hidle hw fun P t r hwork hk _ => ?_
    rw [State.startWork, hk, ← hwork]
    exact P.workFixGuard_eq t (hwork ▸ hfailed)

/-! ### Selection, and WRITE_PROFILE -/

/-- Selection leaves the index selected, and PROFILE_CHANGED if it is another (R124). -/
theorem selectProfile_eq (c : Committed) (now : Stamp) : selectProfile c now =
    let index := selectIndex c.profiles c.sample.value
    ({ c with activeProfile := index },
      if index = c.activeProfile then []
      else [⟨.profileChanged, now, byteOf (c.activeProfile * 16 + index),
        BitVec.ofNat 32 (c.sample.value.getD 0x8000).toNat⟩]) := by
  unfold selectProfile
  dsimp only
  split
  · next h => rw [h]
  · rfl

/-- Settles O50: the entry is replaced, and the selection is what the completion commits. -/
theorem writeProfileReplacesEntry : Obligations.WriteProfileReplacesEntry := by
  intro s tag i u lh ll hh hl p pc ec env hacc hidle hguard hi hu hp hpc hec hrange
  refine ⟨_, rfl, hacc.completes hidle (k := .writeProfile) rfl (params := [i, u, lh, ll, hh, hl, p, pc, ec])
    (show 9 ≤ 520 by decide) (armMatches_unarmed _ _ _ rfl) rfl fun j hj => ?_⟩
  obtain ⟨-, hstamp, -⟩ := hacc.starting_fields (k := .writeProfile) env [i, u, lh, ll, hh, hl, p, pc, ec] rfl hj
  generalize s.starting env j .writeProfile tag [i, u, lh, ll, hh, hl, p, pc, ec] = P at hstamp ⊢
  show P.startWriteProfile _ [i, u, lh, ll, hh, hl, p, pc, ec] env = _
  rw [State.startWriteProfile, parseWriteProfile_eq hi hu hp hpc hec hrange]
  dsimp only
  rw [if_neg (by rw [hguard]; decide), hstamp, selectProfile_eq]
  rfl

/-! ### The sample -/

theorem sampleReply_eq (c : Committed) (source : Source) (reason : Nat) :
    sampleReply c source reason = samplePayload c source.code (byteOf reason) := by
  have hsource : sourceByte c.sample.source = match c.sample.source with
      | none => 0xFF | some .external => 0x00 | some .internal => 0x01 | some .host => 0x02 := by
    rcases c.sample.source with _ | _ | _ | _ <;> rfl
  rw [sampleReply, hsource]
  rfl

theorem parseSetTemperature_eq {h l : Byte} (hlow : -220 ≤ (h ++ l).toInt) (hhigh : (h ++ l).toInt ≤ 600) :
    parseSetTemperature [h, l] = some (h ++ l) := by
  rw [parseSetTemperature, ofBe2, BitVec.ofNat_toNat, BitVec.setWidth_eq]
  simp [plausible, hlow, hhigh]

theorem Settings.source_ne_host_iff (x : Settings) :
    x.source ≠ .host ↔ x.sensorSource = 0x0000 ∨ x.sensorSource = 0x0001 := by
  unfold Settings.source
  split
  · next h => simp [h]
  · next h =>
    split
    · next h' => simp [h']
    · next h' => simp only [ne_eq, not_true, false_iff, not_or]; exact ⟨h, h'⟩

/-- A sample is due under a source of its own while it is absent, marked due or past the refresh interval (R113). -/
theorem Committed.due_iff (c : Committed) : c.due = true ↔
    (c.tables.settings.sensorSource = 0x0000 ∨ c.tables.settings.sensorSource = 0x0001) ∧
      (c.sample.value = none ∨ c.sample.dueMark = true ∨ c.tables.settings.refreshInterval.toNat < c.sample.age) := by
  rw [← Settings.source_ne_host_iff, Committed.due]
  simp [or_assoc]

theorem nearestDegree_of_near {milli d : Int} (hlow : -500 < milli - 1000 * d) (hhigh : milli - 1000 * d < 500) :
    nearestDegree milli = d := by
  rw [nearestDegree, if_neg (by omega)]
  omega

/-- Halfway between two degrees the die gives either of them (R118, log 16). -/
theorem nearestDegree_of_half (d : Int) : nearestDegree (1000 * d + 500) = d ∨ nearestDegree (1000 * d + 500) = d + 1 := by
  have hdegree : (1000 * d + 500) / 1000 = d := by omega
  rw [nearestDegree, if_pos (by omega), hdegree]
  split
  · exact .inr rfl
  · exact .inl rfl

/-- After an attempt that succeeded the sample is not due (R113, R119). -/
theorem Committed.sampled_not_due (c : Committed) (v : Half) (source : Source) : (c.sampled v source).due = false := by
  simp [Committed.due, Committed.sampled]

/-! ### A refresh and the work behind it -/

theorem LowestFree.unique {s : State} {i j : Nat} (hi : LowestFree s i) (hj : LowestFree s j) : i = j := by
  have hle {i j : Nat} (hi : LowestFree s i) (hj : LowestFree s j) : i ≤ j := by
    by_contra hlt
    have hmem : Context.free ∈ s.contexts.take i := by
      refine List.mem_iff_getElem?.mpr ⟨j, ?_⟩
      rw [List.getElem?_take_of_lt (Nat.lt_of_not_le hlt), hj.1]
    exact absurd (hi.2 _ hmem) (by decide)
  exact Nat.le_antisymm (hle hi hj) (hle hj hi)

/-- The state a request starts in, by what it was accepted on. -/
theorem Accepts.starting_eq {s : State} {tag : Byte} (h : Accepts s tag) (env : Env) {i : Nat} {k : Kind} (params : List Byte)
    (hk : k.isMedia = true) (hi : LowestFree s i) : s.starting env i k tag params =
      { s with
        guardHigh := env.guardHigh
        csLow := true
        txn := .ended
        leadSdo := some 0xFF
        offered := none
        resetArm := false
        sdo := .drive [0xFF, 0x00, byteOf (freeCount s.contexts - 1)] 0xFF
        armLatch := none
        nextAcceptance := s.nextAcceptance + 1
        contexts := s.contexts.set i (.held (s.newRequest k tag params) .executing) } :=
  State.starting_eq h.1 (by rw [h.2.1]; decide) env tag params hk hi

/-- A commit behind events that wait ahead of the task's own is the commit of the task's own where those are listed already;
only what it notes for a paused reclaim looks further back (R41, R58, R181). -/
theorem State.commit_preceded {s u : State} {t : Machine.Task} {evs : List Raised} {c : Committed} (hdev : s.dev = .running)
    (hu : u = { s with
      committed := c
      events := (s.recordAll evs).events
      nextEvent := (s.recordAll evs).nextEvent
      overflow := (s.recordAll evs).overflow })
    (hperiod : c.tables.settings.tickPeriod = s.committed.tables.settings.tickPeriod) :
    s.commit (t.preceded evs) = { u.commit t with
      reconsider := s.reconsider || (s.reclaimPaused && (t.work.activeProfile != s.committed.activeProfile ||
        (t.work.permits && !s.committed.permits))) } := by
  have hudev : u.dev = .running := by rw [hu]; exact hdev
  obtain ⟨a, ha⟩ : ∃ a, a = ({ s with
      committed := t.work
      job := none
      alarms := s.alarms ||| t.alarms
      tickPeriod :=
        if t.work.tables.settings.tickPeriod = s.committed.tables.settings.tickPeriod then s.tickPeriod
        else t.work.tables.settings.tickPeriod.toNat
      reconsider := s.reconsider || (s.reclaimPaused && (t.work.activeProfile != s.committed.activeProfile ||
        (t.work.permits && !s.committed.permits))) } : State) := ⟨_, rfl⟩
  obtain ⟨b, hb⟩ : ∃ b, b = ({ u with
      committed := t.work
      job := none
      alarms := u.alarms ||| t.alarms
      tickPeriod :=
        if t.work.tables.settings.tickPeriod = u.committed.tables.settings.tickPeriod then u.tickPeriod
        else t.work.tables.settings.tickPeriod.toNat
      reconsider := u.reconsider || (u.reclaimPaused && (t.work.activeProfile != u.committed.activeProfile ||
        (t.work.permits && !u.committed.permits))) } : State) := ⟨_, rfl⟩
  have hsplit : a.recordAll (evs ++ t.events) = (a.recordAll evs).recordAll t.events := List.foldl_append
  obtain ⟨hevents, hnext, hoverflow⟩ := State.recordAll_congr evs (s := a) (u := s) (by rw [ha]) (by rw [ha]) (by rw [ha])
  have hfirst := State.recordAll_frame evs a
  rw [hevents, hnext, hoverflow] at hfirst
  have hleft : s.commit (t.preceded evs) = (a.recordAll (evs ++ t.events)).comparePool := by
    rw [ha]; exact State.commit_running s (t.preceded evs) hdev
  have hright : u.commit t = (b.recordAll t.events).comparePool := by rw [hb]; exact State.commit_running u t hudev
  rw [hleft, hright, hsplit]
  obtain ⟨q1, q2, q3, q4, q5⟩ := State.recordAll_comparePool_congr (s := a.recordAll evs) (u := b) t.events
    (by rw [hfirst, hb, hu]) (by rw [hfirst, hb, hu]) (by rw [hfirst, hb, hu]) (by rw [hfirst, hb, ha])
    (by rw [hfirst, hb, hu, ha]) (by rw [hfirst, hb, hu, ha]) (by rw [hfirst, hb, hu, ha])
  rw [State.recordAll_comparePool_frame (a.recordAll evs), State.recordAll_comparePool_frame b, q1, q2, q3, q4, q5, hfirst]
  generalize (b.recordAll t.events).comparePool = pooled
  rw [hb, ha, hu]
  dsimp only
  rw [hperiod]

@[simp] theorem WorkEnd.preceded_nil (e : WorkEnd) : e.preceded [] = e := by cases e <;> rfl

/-- Step 6 with a due sample and the internal source: the attempt is made at once (R39, R114). -/
theorem State.stepsFiveSix_internal (s : State) (t : Machine.Task) (r : Request) (env : Env) (hro : t.work.cat.readOnly = false)
    (hdue : t.work.due = true) (hsource : t.work.activeSource = .internal) : s.stepsFiveSix t r env =
      s.afterRefresh (t.absorb (t.work.sampled (dieValue env.die) .internal,
        changeOf t.work s.stamp (t.work.sampled (dieValue env.die) .internal).activeProfile (dieValue env.die))) r := by
  rw [State.stepsFiveSix, hro, hdue, hsource, ← attemptSucceeds_eq]
  rfl

/-- With an external source it begins an attempt (R39, R114). -/
theorem State.stepsFiveSix_external (s : State) (t : Machine.Task) (r : Request) (env : Env) (hro : t.work.cat.readOnly = false)
    (hdue : t.work.due = true) (hsource : t.work.activeSource = .external) :
    s.stepsFiveSix t r env = s.begin t .sensor .refresh := by
  rw [State.stepsFiveSix, hro, hdue, hsource]
  rfl

/-- The work behind a refresh is the work without one, on what the refresh leaves; its events come behind the refresh's
(R39, R125, R181). -/
theorem ReachesStepSix.behindRefresh {s : State} {tag : Byte} {env : Env} {i : Instr} {k : Kind} {ps : List Byte} {armed : Bool}
    (h : ReachesStepSix s tag env i k ps armed) (hacc : Accepts s tag) (hidle : EngineIdle s)
    (hro : s.committed.cat.readOnly = false) (hdue : s.committed.due = true) (hsource : s.committed.activeSource = .internal)
    {c : Committed} (hc : c = s.committed.sampled (dieValue env.die) .internal) (hpermits : c.permits = true)
    {evs : List Raised} (hevs : evs = changeOf s.committed ⟨s.tick, s.timeUnset⟩ c.activeProfile (dieValue env.die)) :
    ∃ (j : Nat) (e : WorkEnd), LowestFree s j ∧ (∃ r, e.task.owner = .request j r) ∧
      e.task.work = { c with cat := e.task.work.cat } ∧
      exec i s = .next ((e.preceded evs).apply (s.starting env j k tag ps)).settle ∧
      exec i { s with committed := c } = .next (e.apply (State.starting { s with committed := c } env j k tag ps)).settle ∧
      exec i (State.recordAll { s with committed := c } evs) =
        .next (e.apply ((State.recordAll { s with committed := c } evs).starting env j k tag ps)).settle := by
  obtain ⟨hexec, harm, hlen, hmedia, hpasses⟩ := h.passes
  obtain ⟨j, hlow, -, hstart⟩ := hacc.doMedia_eq hidle k ps env hmedia hlen
  obtain ⟨r, hr⟩ : ∃ r : Request, r = ⟨tag, k, ps, armed, s.nextAcceptance⟩ := ⟨_, rfl⟩
  have hrequest (u : State) (hl : u.armLatch = s.armLatch) (hn : u.nextAcceptance = s.nextAcceptance) :
      u.newRequest k tag ps = r := by rw [State.newRequest, hl, harm, hn, hr]
  obtain ⟨-, hstamp, -⟩ := hacc.starting_fields env ps hmedia hlow
  obtain ⟨e, howner, hwork, hend⟩ := worksTo_startWork (s := s.starting env j k tag ps)
    (t := ⟨.request j r, c, [], 0⟩) rfl r
  have hother (u : State) (hu : Accepts u tag) (hui : EngineIdle u) (hcontexts : u.contexts = s.contexts)
      (hlatch : u.armLatch = s.armLatch) (hnumber : u.nextAcceptance = s.nextAcceptance) (hcommitted : u.committed = c)
      (hdev : u.dev = s.dev) (hcat : u.catSegs = s.catSegs) (hnow : u.stamp = s.stamp) :
      exec i u = .next (e.apply (u.starting env j k tag ps)).settle := by
    obtain ⟨j', hlow', -, hstart'⟩ := hu.doMedia_eq hui k ps env hmedia hlen
    obtain rfl : j = j' := hlow.unique (by rw [LowestFree, ← hcontexts]; exact hlow')
    have hsees : SeesSame (s.starting env j k tag ps) (u.starting env j k tag ps) := by
      rw [hacc.starting_eq env ps hmedia hlow, hu.starting_eq env ps hmedia hlow']
      exact ⟨hdev, hcat, hnow⟩
    have hdone := hend _ [] hsees
    rw [WorkEnd.preceded_nil] at hdone
    have hdo : u.doMedia k tag ps env = (u.starting env j k tag ps).startKind
        ⟨.request j (u.newRequest k tag ps), u.committed, [], 0⟩ (u.newRequest k tag ps) env := hstart'
    rw [hexec u, hdo]
    generalize u.starting env j k tag ps = P at hdone ⊢
    rw [hrequest u hlatch hnumber, hcommitted, hr, hpasses _ _ _ (by rw [hc]; rfl) (by rw [hc]; rfl),
      State.stepsFiveSix_notDue _ _ _ _ (by rw [hc]; exact hro) (by rw [hc]; exact Committed.sampled_not_due _ _ _),
      State.afterRefresh, if_pos hpermits, ← hr]
    exact congrArg (fun v => Host.Outcome.next v.settle) hdone
  refine ⟨j, e, hlow, ⟨r, howner⟩, hwork, ?_, hother _ hacc hidle rfl rfl rfl rfl rfl rfl rfl, ?_⟩
  · have hdone := hend _ evs (.refl _)
    have hdo : s.doMedia k tag ps env = (s.starting env j k tag ps).startKind
        ⟨.request j (s.newRequest k tag ps), s.committed, [], 0⟩ (s.newRequest k tag ps) env := hstart
    rw [hexec s, hdo]
    generalize s.starting env j k tag ps = P at hdone hstamp ⊢
    rw [hrequest s rfl rfl, hr, hpasses _ _ _ rfl rfl, State.stepsFiveSix_internal _ _ _ _ hro hdue hsource, hstamp, ← hr]
    dsimp only
    have habsorb : (⟨.request j r, s.committed, [], 0⟩ : Machine.Task).absorb (c, evs) =
        (⟨.request j r, c, [], 0⟩ : Machine.Task).preceded evs := by
      simp only [Task.absorb, Task.preceded, List.nil_append, List.append_nil]
    rw [← hc, ← hevs, habsorb, State.afterRefresh,
      if_pos (show ((⟨.request j r, c, [], 0⟩ : Machine.Task).preceded evs).work.permits = true from hpermits)]
    exact congrArg (fun v => Host.Outcome.next v.settle) hdone
  · have hframe := State.recordAll_frame evs { s with committed := c }
    generalize State.recordAll { s with committed := c } evs = u at hframe ⊢
    exact hother u (by rw [hframe]; exact hacc) (by rw [hframe]; exact hidle) (by rw [hframe]) (by rw [hframe])
      (by rw [hframe]) (by rw [hframe]) (by rw [hframe]) (by rw [hframe]) (by rw [hframe]; rfl)

@[simp] theorem State.complete_job (s : State) (t : Machine.Task) (st : Status) (payload : List Byte) :
    (s.complete t st payload).job = none := by
  have hcommit : (s.commit t).job = none := by rw [State.commit_frame]
  rw [State.complete]
  cases t.owner with
  | request i r => exact hcommit
  | background => exact hcommit

/-- With the work complete at once behind a refresh, the state is the one of the work behind the refresh's events, but for
what it notes for a paused reclaim (R41, R58, log 14). -/
theorem WorkEnd.apply_preceded_completed {s : State} {tag : Byte} (hacc : Accepts s tag) (env : Env) {j : Nat} {k : Kind}
    (ps : List Byte) (hk : k.isMedia = true) (hj : LowestFree s j) {c : Committed} {evs : List Raised}
    (hperiod : c.tables.settings.tickPeriod = s.committed.tables.settings.tickPeriod) {t : Machine.Task} {r : Request}
    (howner : t.owner = .request j r) (hprofile : t.work.activeProfile = c.activeProfile) (hpermits : t.work.permits = c.permits)
    (st : Status) (payload : List Byte) :
    let u := ((State.recordAll { s with committed := c } evs).starting env j k tag ps).complete t st payload
    (s.starting env j k tag ps).complete (t.preceded evs) st payload = { u with
      reconsider := u.reconsider || (s.reclaimPaused && (c.activeProfile != s.committed.activeProfile ||
        (c.permits && !s.committed.permits))) } := by
  have hframe := State.recordAll_frame evs { s with committed := c }
  obtain ⟨v, hv⟩ : ∃ v, v = State.recordAll { s with committed := c } evs := ⟨_, rfl⟩
  rw [← hv] at hframe ⊢
  have hvacc : Accepts v tag := by rw [hframe]; exact hacc
  have hvj : LowestFree v j := by rw [hframe]; exact hj
  have hP := hacc.starting_eq env ps hk hj
  have hU := hvacc.starting_eq env ps hk hvj
  have hrequest : v.newRequest k tag ps = s.newRequest k tag ps := by rw [hframe]; rfl
  obtain ⟨hevents, hnext, hoverflow⟩ := State.recordAll_congr evs (s := s.starting env j k tag ps)
    (u := { s with committed := c }) (by rw [hP]) (by rw [hP]) (by rw [hP])
  obtain ⟨P, hPdef⟩ : ∃ P, P = s.starting env j k tag ps := ⟨_, rfl⟩
  obtain ⟨U, hUdef⟩ : ∃ U, U = v.starting env j k tag ps := ⟨_, rfl⟩
  rw [← hPdef] at hevents hnext hoverflow hP ⊢
  rw [← hUdef] at hU ⊢
  have hcommit := State.commit_preceded (s := P) (u := U) (t := t) (evs := evs) (c := c) (by rw [hP]; exact hacc.2.1)
    (by rw [hU, hevents, hnext, hoverflow, ← hv, hrequest, hP, hframe]) (by rw [hP]; exact hperiod)
  have hreconsider : (U.commit t).reconsider = s.reconsider := by
    rw [State.commit_frame]
    have hUc : U.committed = c := by rw [hU, hframe]
    rw [hUc, hprofile, hpermits, hU, hframe]
    simp
  dsimp only
  rw [State.complete, State.complete, show (t.preceded evs).owner = .request j r from howner, howner]
  dsimp only
  have hright : ((U.commit t).finish j r st payload).reconsider = s.reconsider := hreconsider
  rw [hright, hcommit, hP]
  rw [hprofile, hpermits]
  rfl

/-- An attempt with the internal source is made at once, due or not (R114, R118, R128). -/
theorem exec_sampleTemperature_internal {s : State} {tag : Byte} (env : Env) (hacc : Accepts s tag) (hidle : EngineIdle s)
    (hsource : s.committed.activeSource = .internal) :
    let c := s.committed.sampled (dieValue env.die) .internal
    ∃ t, exec (.sampleTemperature tag [] env) s = .next t ∧ CompletedAtOnce s t .sampleTemperature tag [] false .ok
      (samplePayload c 0x01 0x00) c (changeOf s.committed ⟨s.tick, s.timeUnset⟩ c.activeProfile (dieValue env.die)) := by
  refine ⟨_, rfl, hacc.completes hidle (k := .sampleTemperature) rfl (params := []) (Nat.zero_le _)
    (armMatches_unarmed _ _ _ rfl) rfl fun j hj => ?_⟩
  obtain ⟨-, hstamp, -⟩ := hacc.starting_fields (k := .sampleTemperature) env [] rfl hj
  generalize s.starting env j .sampleTemperature tag [] = P at hstamp ⊢
  show P.startSample _ [] env = _
  simp only [State.startSample, parseEmpty, hsource, internalAttempt, attemptSucceeds_eq, hstamp, sampleReply_eq]
  rfl

/-- With the external source a SAMPLE_TEMPERATURE begins an attempt (R114). -/
theorem exec_sampleTemperature_external {s : State} {tag : Byte} (env : Env) (hacc : Accepts s tag) (hidle : EngineIdle s)
    (hsource : s.committed.activeSource = .external) :
    Started s (s.doMedia .sampleTemperature tag [] env).settle .sampleTemperature tag [] false .sensor .sampling := by
  refine hacc.starts hidle rfl (Nat.zero_le _) (armMatches_unarmed _ _ _ rfl) fun j hj => ?_
  generalize s.starting env j .sampleTemperature tag [] = P
  show P.startSample _ [] env = _
  simp only [State.startSample, parseEmpty, hsource]

/-- With HOST it reports the sample as it is (R114, R128). -/
theorem exec_sampleTemperature_host {s : State} {tag : Byte} (env : Env) (hacc : Accepts s tag) (hidle : EngineIdle s)
    (hsource : s.committed.activeSource = .host) :
    CompletedAtOnce s (s.doMedia .sampleTemperature tag [] env).settle .sampleTemperature tag [] false .ok
      (samplePayload s.committed 0x02 0x00) s.committed [] := by
  refine hacc.completes hidle rfl (Nat.zero_le _) (armMatches_unarmed _ _ _ rfl) rfl fun j hj => ?_
  generalize s.starting env j .sampleTemperature tag [] = P
  show P.startSample _ [] env = _
  simp only [State.startSample, parseEmpty, hsource, sampleReply_eq]
  rfl

/-- SET_TEMPERATURE, from its check on (R129). -/
theorem State.startSetTemperature_eq (P : State) (t : Machine.Task) {h l : Byte} (hlow : -220 ≤ (h ++ l).toInt)
    (hhigh : (h ++ l).toInt ≤ 600) : P.startSetTemperature t [h, l] =
      if t.work.tables.settings.source ≠ .host ∨ t.work.sample.fallback = true then P.complete t .wrongSource []
      else
        let c := { t.work with sample := t.work.sample.succeeded (h ++ l) .host }
        let w := { c with activeProfile := selectIndex c.profiles (some (h ++ l)) }
        P.complete (t.absorb (w, changeOf t.work P.stamp w.activeProfile (h ++ l))) .ok
          [byteOf t.work.activeProfile, byteOf w.activeProfile, flagByte w.permits] := by
  rw [State.startSetTemperature, parseSetTemperature_eq hlow hhigh]
  dsimp only
  rw [selectProfile_eq]
  rfl

theorem exec_setTemperature {s : State} {tag h l : Byte} (env : Env) (hacc : Accepts s tag) (hidle : EngineIdle s)
    (hlow : -220 ≤ (h ++ l).toInt) (hhigh : (h ++ l).toInt ≤ 600) :
    let t := (s.doMedia .setTemperature tag [h, l] env).settle
    let index := selectIndex s.committed.profiles (some (h ++ l))
    let c : Committed := { s.committed with
      sample := s.committed.sample.succeeded (h ++ l) .host
      activeProfile := index }
    (s.committed.tables.settings.source ≠ .host ∨ s.committed.sample.fallback = true →
      CompletedAtOnce s t .setTemperature tag [h, l] false .wrongSource [] s.committed []) ∧
    (s.committed.tables.settings.source = .host → s.committed.sample.fallback = false →
      CompletedAtOnce s t .setTemperature tag [h, l] false .ok
        [byteOf s.committed.activeProfile, byteOf index, flagByte c.permits] c
        (changeOf s.committed ⟨s.tick, s.timeUnset⟩ index (h ++ l))) := by
  refine ⟨fun hwrong => ?_, fun hsource hfallback => ?_⟩ <;>
    refine hacc.completes hidle (k := .setTemperature) rfl (params := [h, l]) (show 2 ≤ 520 by decide) (armMatches_unarmed _ _ _ rfl) rfl
      fun j hj => ?_ <;>
    obtain ⟨-, hstamp, -⟩ := hacc.starting_fields (k := .setTemperature) env [h, l] rfl hj <;>
    generalize s.starting env j .setTemperature tag [h, l] = P at hstamp ⊢ <;>
    refine (P.startSetTemperature_eq _ hlow hhigh).trans ?_
  · exact if_pos hwrong
  · rw [if_neg (by simp [hsource, hfallback]), hstamp]
    rfl

/-- Step 6 with a due sample: an external attempt begins; an internal one is made at once, and the request is inhibited or
goes on with its work (R39, R40, R114, R125, R181). -/
theorem ReachesStepSix.refreshes {s : State} {tag : Byte} {env : Env} {i : Instr} {k : Kind} {ps : List Byte} {armed : Bool}
    (h : ReachesStepSix s tag env i k ps armed) (hacc : Accepts s tag) (hidle : EngineIdle s)
    (hro : s.committed.cat.readOnly = false) (hdue : s.committed.due = true) {c : Committed}
    (hc : c = s.committed.sampled (dieValue env.die) .internal) {evs : List Raised}
    (hevs : evs = changeOf s.committed ⟨s.tick, s.timeUnset⟩ c.activeProfile (dieValue env.die)) :
    ∃ t, exec i s = .next t ∧
      (s.committed.activeSource = .external → Started s t k tag ps armed .sensor .refresh) ∧
      (s.committed.activeSource = .internal → c.permits = false → CompletedAtOnce s t k tag ps armed .tempInhibit [] c evs) ∧
      (s.committed.activeSource = .internal → c.permits = true →
        (∀ u j, exec i { s with committed := c } = .next u → u.job = some j →
          t = { u with
            committed := s.committed
            job := some ⟨{ j.task with events := evs ++ j.task.events }, j.op, j.stage⟩ }) ∧
        ∀ u, exec i ({ s with committed := c }.recordAll evs) = .next u → u.job = none →
          t = { u with reconsider := u.reconsider || (s.reclaimPaused &&
            (c.activeProfile != s.committed.activeProfile || (c.permits && !s.committed.permits))) }) := by
  obtain ⟨hexec, harm, hlen, hmedia, hpasses⟩ := h.passes
  have hrequest : s.newRequest k tag ps = ⟨tag, k, ps, armed, s.nextAcceptance⟩ := by rw [State.newRequest, harm]
  refine ⟨_, hexec s, fun hsource => ?_, fun hsource hinhibit => ?_, fun hsource hpermits => ?_⟩
  · refine hacc.starts hidle hmedia hlen harm fun j _ => ?_
    rw [hrequest, hpasses _ _ _ rfl rfl]
    exact State.stepsFiveSix_external _ _ _ _ hro hdue hsource
  · refine hacc.completes hidle hmedia hlen harm (by rw [hc]; rfl) fun j hj => ?_
    obtain ⟨-, hstamp, -⟩ := hacc.starting_fields env ps hmedia hj
    rw [hrequest, hpasses _ _ _ rfl rfl, State.stepsFiveSix_internal _ _ _ _ hro hdue hsource, hstamp]
    dsimp only
    rw [← hc, ← hevs]
    exact if_neg (by rw [show (Task.absorb _ (c, evs)).work = c from rfl, hinhibit]; decide)
  · obtain ⟨j, e, hj, ⟨r, howner⟩, hwork, hs, hu, hrec⟩ := h.behindRefresh hacc hidle hro hdue hsource hc hpermits hevs
    have hprofile : e.task.work.activeProfile = c.activeProfile := by rw [hwork]
    have hpermits' : e.task.work.permits = c.permits := by rw [hwork]; rfl
    have hleft : (s.doMedia k tag ps env).settle = ((e.preceded evs).apply (s.starting env j k tag ps)).settle :=
      Host.Outcome.next.inj ((hexec s).symm.trans hs)
    rw [hleft]
    refine ⟨fun u job hexecu hjob => ?_, fun u hexecu hjob => ?_⟩
    · obtain rfl := Host.Outcome.next.inj (hu.symm.trans hexecu)
      cases e with
      | completed t st payload => exact absurd hjob (by rw [WorkEnd.apply, State.settle_job, State.complete_job]; simp)
      | begun t op stage =>
        obtain rfl : (⟨t, op, stage⟩ : Job) = job := Option.some.inj hjob
        have hP := hacc.starting_eq env ps hmedia hj
        have hU := Accepts.starting_eq (s := { s with committed := c }) hacc env ps hmedia hj
        rw [WorkEnd.preceded, WorkEnd.apply, WorkEnd.apply, hP, hU, hc]
        rfl
    · obtain rfl := Host.Outcome.next.inj (hrec.symm.trans hexecu)
      cases e with
      | begun t op stage => exact absurd hjob (by simp [WorkEnd.apply, State.begin])
      | completed t st payload =>
        exact congrArg State.settle (WorkEnd.apply_preceded_completed hacc env ps hmedia hj (by rw [hc]; rfl) howner hprofile
          hpermits' st payload)

/-- Settles O48: SAMPLE_TEMPERATURE by its source, SET_TEMPERATURE by its check, step 6 by what the refresh leaves and what
the work behind it does, and the rules of the due sample and of the die's value. -/
theorem sampleRequestsRenewSample : Obligations.SampleRequestsRenewSample := by
  refine ⟨fun s tag env hacc hidle hsource => exec_sampleTemperature_internal env hacc hidle hsource,
    fun s tag h l env hacc hidle hlow hhigh => ⟨_, rfl, exec_setTemperature env hacc hidle hlow hhigh⟩,
    fun s tag env hacc hidle => ⟨_, rfl, exec_sampleTemperature_external env hacc hidle,
      exec_sampleTemperature_host env hacc hidle⟩,
    fun s tag env i k ps armed hacc hidle hro hdue h => ?_, fun c => c.due_iff, fun milli d hlow hhigh => ?_, fun d => ?_⟩
  · obtain ⟨t, ht, hexternal, hinhibited, hworks⟩ := h.refreshes hacc hidle hro hdue rfl rfl
    exact ⟨t, ht, hexternal, fun hsource => ⟨hinhibited hsource, hworks hsource⟩⟩
  · rw [dieValue, nearestDegree_of_near hlow hhigh]
    rfl
  · rcases nearestDegree_of_half d with hd | hd
    · exact .inl (by rw [dieValue, hd]; rfl)
    · exact .inr (by rw [dieValue, hd]; rfl)

end Sys2Proof.Machine
end

section
/-! Hardware resets and the mount: what RESET# stops, how the mount begins and what it rebuilds from, how it ends. -/

namespace Sys2Proof.Machine

/-! ### What a hardware reset stops -/

/-- Of the state, a stopped operation leaves its mark on the array and the fuse store alone (R170). -/
theorem State.stopOperation_frame (s : State) (rb : ReadBack) : s.stopOperation rb = { s with
    job := none
    flash := (s.stopOperation rb).flash
    catSegs := (s.stopOperation rb).catSegs
    fuses := (s.stopOperation rb).fuses } := by
  unfold State.stopOperation
  cases hjob : s.job with
  | none => simp [← hjob]
  | some j => dsimp only; rw [State.land_frame]

/-- Everything a hardware reset does (R22, R45, R170). -/
theorem State.hardwareStop_eq (s : State) (rb : ReadBack) : s.hardwareStop rb = { s with
    resetLow := true
    sdo := .highZ
    sensorLog := s.cutAttempt.sensorLog
    txn := s.cutTransaction
    offered := none
    resetArm := false
    frameErrors := 0
    incompleteFrames := 0
    unknownLeads := 0
    contexts := List.replicate 8 .free
    nextAcceptance := 0
    nextCompletion := 0
    echo := none
    armLatch := none
    job := none
    flash := (s.hardwareStop rb).flash
    catSegs := (s.hardwareStop rb).catSegs
    fuses := (s.hardwareStop rb).fuses
    reclaimPaused := false
    reconsider := false
    sleepPending := false
    tick := 0
    timeUnset := true
    tickPeriod := 10
    alarms := 0
    events := []
    nextEvent := 0
    overflow := 0 } := by
  have hcut := s.cutAttempt_frame
  have hstop := s.cutAttempt.stopOperation_frame rb
  unfold State.hardwareStop
  generalize s.cutAttempt.stopOperation rb = stopped at *
  rw [hstop]
  generalize s.cutAttempt = cut at *
  rw [hcut]
  rfl

theorem State.cutTransaction_of_low {s : State} (h : s.csLow = true) : ∃ l, s.cutTransaction = .noTransaction l := by
  rw [State.cutTransaction, if_pos h]
  cases s.txn <;> exact ⟨_, rfl⟩

theorem State.cutTransaction_of_high {s : State} (h : s.csLow = false) : s.cutTransaction = .idle := by
  rw [State.cutTransaction, if_neg (by rw [h]; decide)]

/-- Settles O33: the whole of a hardware reset is one equation; the short pulse is the device's choice. -/
theorem hardwareResetStopsEverything : Obligations.HardwareResetStopsEverything := by
  refine ⟨fun s rb => ⟨_, rfl, ?_⟩, fun s rb halert => ⟨_, rfl, ?_⟩⟩
  · have hstopped : OnlyStopped s (s.hardwareStop rb).settle :=
      (s.hardwareStop_onlyStopped rb).congr rfl rfl rfl rfl rfl rfl rfl
    rw [State.doHardwareReset, if_pos rfl]
    rw [s.hardwareStop_eq rb] at hstopped ⊢
    exact ⟨rfl, rfl, rfl, rfl, rfl, rfl, rfl, rfl, rfl, rfl, rfl, rfl, rfl, rfl, rfl, rfl, rfl, rfl,
      fun h => State.cutTransaction_of_low h, fun h => State.cutTransaction_of_high h, rfl, hstopped⟩
  · rw [State.doHardwareReset, if_neg (by decide)]
    dsimp only
    split
    · refine ⟨?_, .inr rfl⟩
      rw [State.hardwareStop_eq]
      rfl
    · refine ⟨rfl, .inl ⟨?_, fun _ => rfl⟩⟩
      have hlevel : ({ s with freeDraws := s.freeDraws + 1 } : State).alertLevel = s.alertLow := halert.symm
      rw [State.settle, hlevel]

end Sys2Proof.Machine
end

section
/-! The first step of the mount: what it takes from the fuse store, what it rebuilds from the array, and what it reports. -/

namespace Sys2Proof.Machine

/-! ### The torn records it finds (R172) -/

/-- The event that a stream gives the mount, if its last used slot is a void (R172). -/
def tornEvent (flash : List Host.Cell) (now : Stamp) (id : Nat) (x : Machine.Stream) : Option Raised :=
  (tornSegment flash x).map fun seg => raised .tornRecord now id seg

theorem tornEvents_eq_filterMap (flash : List Host.Cell) (now : Stamp) (xs : List Machine.Stream) (k : Nat) :
    tornEvents flash now k xs =
      (List.range xs.length).filterMap fun i => tornEvent flash now (k + i) (xs.getD i Stream.absent) := by
  induction xs generalizing k with
  | nil => rfl
  | cons x xs ih =>
    rw [List.length_cons, List.range_succ_eq_map, List.filterMap_cons, List.filterMap_map, tornEvents, ih]
    have htail : (fun i => tornEvent flash now (k + 1 + i) (xs.getD i Stream.absent)) =
        (fun i => tornEvent flash now (k + i) ((x :: xs).getD i Stream.absent)) ∘ Nat.succ := by
      funext i
      rw [Function.comp_apply, List.getD_cons_succ, Nat.add_right_comm, Nat.add_assoc]
    rw [htail, Nat.add_zero, List.getD_cons_zero, tornEvent]
    cases tornSegment flash x <;> rfl

theorem tornOf_eq (flash : List Host.Cell) (now : Stamp) (xs : List Machine.Stream) :
    tornOf flash now xs = tornEvents flash now 0 xs := by
  rw [tornEvents_eq_filterMap, tornOf]
  refine List.filterMap_congr fun i _ => ?_
  rw [Nat.zero_add, tornEvent, tornSegment]
  dsimp only
  generalize xs.getD i Stream.absent = x
  rw [Stream.newest]
  cases x.segs.getLast? with
  | none => rfl
  | some l =>
    have hmark : slotBase l.seg x.slotSize (x.writePos - 1) + markOffset =
      l.seg * 32768 + 512 + (x.writePos - 1) * x.slotSize + 7 := rfl
    dsimp only
    rw [hmark, show commitMark = 0x5A from rfl]
    split <;> rfl

theorem tornSegment_of_absent (flash : List Host.Cell) {x : Machine.Stream} (h : x.state = .absent) :
    tornSegment flash x = none := by
  rw [tornSegment]
  cases x.newest with
  | none => rfl
  | some l => exact if_neg (by simp [h])

theorem tornEvents_of_absent (flash : List Host.Cell) (now : Stamp) {xs : List Machine.Stream}
    (h : ∀ x ∈ xs, x.state = .absent) (k : Nat) : tornEvents flash now k xs = [] := by
  induction xs generalizing k with
  | nil => rfl
  | cons x xs ih =>
    rw [tornEvents, tornSegment_of_absent flash (h x List.mem_cons_self)]
    exact ih (fun y hy => h y (List.mem_cons_of_mem x hy)) (k + 1)

theorem Tables.fresh_streams_absent {x : Machine.Stream} (h : x ∈ Tables.fresh.streams) : x.state = .absent := by
  rw [List.eq_of_mem_replicate h]
  rfl

theorem tornOf_kind {flash : List Host.Cell} {now : Stamp} {xs : List Machine.Stream} {e : Raised}
    (h : e ∈ tornOf flash now xs) : e.kind = .tornRecord := by
  rw [tornOf_eq, tornEvents_eq_filterMap, List.mem_filterMap] at h
  obtain ⟨i, -, hi⟩ := h
  obtain ⟨seg, -, rfl⟩ := Option.map_eq_some_iff.mp hi
  rfl

/-! ### What it takes from the fuse store (R145 to R148, R151) -/

theorem FuseStore.loadTable_eq_mountedTable (f : FuseStore) : (f.loadTable.1, f.loadTable.2.1) = mountedTable f := by
  rw [FuseStore.loadTable, FuseStore.bankState, mountedTable]
  cases f.markerB <;> cases f.markerA <;> cases goodBank f.bankB <;> cases goodBank f.bankA <;> rfl

theorem FuseStore.labelStateOf_eq (f : FuseStore) : f.labelStateOf =
    if f.labelMarker = false then .absent else if labelGood f then .present else .damaged := by
  rw [FuseStore.labelStateOf, labelGood]
  cases f.labelMarker with
  | false => rfl
  | true => cases f.label <;> simp

/-- The working copies of the label (R151). -/
theorem FuseStore.copies_label (f : FuseStore) :
    f.copies.labelState = (if f.labelMarker = false then .absent else if labelGood f then .present else .damaged) ∧
      (f.labelMarker = false → f.copies.label = List.replicate 16 0x00) ∧
      ∀ bs, f.labelMarker = true → f.label = some bs → f.copies.label = bs.take 16 := by
  refine ⟨f.labelStateOf_eq, fun hmarker => ?_, fun bs hmarker hlabel => ?_⟩
  · rw [FuseStore.copies]
    dsimp only
    rw [FuseStore.labelStateOf_eq, if_pos hmarker, if_pos rfl]
  · have hstate : f.labelStateOf ≠ .absent := by
      rw [FuseStore.labelStateOf_eq, hmarker]
      cases labelGood f <;> decide
    rw [FuseStore.copies]
    dsimp only
    rw [if_neg hstate, FuseStore.labelRead, hlabel]

theorem FuseStore.labelStateOf_eq_damaged (f : FuseStore) :
    f.labelStateOf = .damaged ↔ f.labelMarker = true ∧ labelGood f = false := by
  rw [FuseStore.labelStateOf_eq]
  cases f.labelMarker <;> cases labelGood f <;> decide

theorem FuseStore.loadTable_faults (f : FuseStore) (now : Stamp) :
    f.loadTable.2.2.map (fun b => raised .fuseFault now 2 b) =
      (if f.markerB = true ∧ goodBank f.bankB = none then [⟨.fuseFault, now, 0x02, 2⟩] else []) ++
      (if f.markerA = true ∧ goodBank f.bankA = none ∧ ¬ (f.markerB = true ∧ goodBank f.bankB ≠ none)
        then [⟨.fuseFault, now, 0x02, 1⟩] else []) := by
  rw [FuseStore.loadTable, FuseStore.bankState]
  cases f.markerB <;> cases f.markerA <;> cases goodBank f.bankB <;> cases goodBank f.bankA <;> simp [raised, byteOf]

theorem FuseStore.faults_eq (f : FuseStore) (now : Stamp) : f.faults now = fuseFaultsOf f now := by
  rw [FuseStore.faults, fuseFaultsOf, FuseStore.loadTable_faults, ← List.append_assoc]
  by_cases hlabel : f.labelStateOf = .damaged
  · rw [if_pos hlabel, if_pos (f.labelStateOf_eq_damaged.mp hlabel)]
    rfl
  · rw [if_neg hlabel, if_neg (fun h => hlabel (f.labelStateOf_eq_damaged.mpr h))]
    rfl

theorem fuseFaultsOf_kind {f : FuseStore} {now : Stamp} {e : Raised} (h : e ∈ fuseFaultsOf f now) : e.kind = .fuseFault := by
  rw [← FuseStore.faults_eq, FuseStore.faults] at h
  simp only [List.mem_append, List.mem_map] at h
  rcases h with (h | ⟨b, -, rfl⟩) | h
  · split at h
    · cases h
    · rw [List.mem_singleton.mp h]; rfl
  · rfl
  · split at h
    · rw [List.mem_singleton.mp h]; rfl
    · cases h

/-! ### Its one step (R148, R171 to R173, R181) -/

theorem dirtyUnrecorded_streams (tb : Tables) (flash : List Host.Cell) :
    (dirtyUnrecorded tb flash).streams = tb.streams := by
  rw [dirtyUnrecorded]
  induction unrecordedSegments tb flash generalizing tb with
  | nil => rfl
  | cons i is ih => exact ih (tb.addDirty i)

/-- The streams after the mount's step 4: completed from the array, or those of a fresh device (R76, R85). -/
def streamsAtMount (segs : List CatSegment) (flash : List Host.Cell) : List Machine.Stream :=
  if (rebuild segs).2.2 = .faulted then Tables.fresh.streams else (rebuild segs).1.streams.map (recoverStream flash)

theorem recoverStream_of_absent (flash : List Host.Cell) {x : Machine.Stream} (h : x.state = .absent) :
    recoverStream flash x = x := by rw [recoverStream, if_pos h]

/-- Without an image the tables are those of a fresh device (R64, R171). -/
theorem rebuild_of_not_image {segs : List CatSegment} (h : (rebuild segs).2.2 ≠ .image) : (rebuild segs).1 = Tables.fresh := by
  rw [rebuild] at h ⊢
  cases hnewest : newestImage segs with
  | none => rfl
  | some k => rw [hnewest] at h; exact absurd rfl h

/-- TORN_RECORD is raised for an image alone; the streams of any other mount are ABSENT (R172). -/
theorem streamsAtMount_torn (segs : List CatSegment) (flash : List Host.Cell) (now : Stamp) :
    (if (rebuild segs).2.2 = .image then
      tornEvents flash now 0 ((rebuild segs).1.streams.map (recoverStream flash)) else []) =
    tornOf flash now (streamsAtMount segs flash) := by
  rw [tornOf_eq, streamsAtMount]
  by_cases himage : (rebuild segs).2.2 = .image
  · rw [if_pos himage, if_neg (by rw [himage]; decide)]
  · rw [if_neg himage, rebuild_of_not_image himage]
    have hfresh : Tables.fresh.streams.map (recoverStream flash) = Tables.fresh.streams :=
      (List.map_congr_left fun x hx => recoverStream_of_absent flash (Tables.fresh_streams_absent hx)).trans (List.map_id _)
    rw [hfresh, ite_self, tornEvents_of_absent flash now fun x hx => Tables.fresh_streams_absent hx]

/-- The tables after steps 2 to 4 (R76, R85, R171). -/
def tablesAtMount (segs : List CatSegment) (flash : List Host.Cell) : Tables :=
  if (rebuild segs).2.2 = .faulted then Tables.fresh
  else dirtyUnrecorded { (rebuild segs).1 with streams := (rebuild segs).1.streams.map (recoverStream flash) } flash

theorem tablesAtMount_streams (segs : List CatSegment) (flash : List Host.Cell) :
    (tablesAtMount segs flash).streams = streamsAtMount segs flash := by
  rw [tablesAtMount, streamsAtMount]
  split
  · rfl
  · rw [dirtyUnrecorded_streams]

/-- What the mount's first step finds and reports (R148, R172). -/
def State.mountFindings (s : State) : List Raised :=
  fuseFaultsOf s.fuses s.stamp ++ tornOf s.flash s.stamp (streamsAtMount s.catSegs s.flash)

/-- The whole of the mount's first step, but for the recording of what it found. -/
def State.mounting (s : State) : State := { s with
  dev := .mounting
  sleepPending := false
  ready := true
  job := none
  reclaimPaused := false
  reconsider := false
  poolLow := false
  poolLowArmed := true
  mountOutcome := (rebuild s.catSegs).2.2
  mountSampled := false
  tornFound := (tornOf s.flash s.stamp (streamsAtMount s.catSegs s.flash)).length
  faultedProfile := none
  tickPeriod := if (rebuild s.catSegs).2.2 = .faulted then 10 else (rebuild s.catSegs).1.settings.tickPeriod.toNat
  alarms := s.alarms ||| (if fuseFaultsOf s.fuses s.stamp = [] then 0 else 0x04) |||
    (if tornOf s.flash s.stamp (streamsAtMount s.catSegs s.flash) = [] then 0 else 0x20)
  committed := {
    tables := tablesAtMount s.catSegs s.flash
    cat := (rebuild s.catSegs).2.1
    sample := Sample.initial
    profiles := (mountedTable s.fuses).1
    activeProfile := 0
    fuse := s.fuses.copies } }

theorem State.mountStart_eq (s : State) : s.mountStart = s.mounting.recordAll s.mountFindings := by
  have htable : s.fuses.loadTable.1 = (mountedTable s.fuses).1 := congrArg Prod.fst s.fuses.loadTable_eq_mountedTable
  have hempty (l : List Raised) (a : BitVec 6) : (if l.isEmpty then 0 else a) = if l = [] then 0 else a := by
    cases l <;> rfl
  unfold State.mountStart
  dsimp only
  rw [streamsAtMount_torn, FuseStore.faults_eq, hempty, hempty, htable]
  rfl

theorem State.mountStart_begun {s : State} (hevents : s.events = []) (hnext : s.nextEvent = 0) (hoverflow : s.overflow = 0)
    (halarms : s.alarms = 0) : MountBegun s.mountStart.settle := by
  obtain ⟨hwhat, hnumber, hnextEvent, hlost⟩ := s.mounting.recordAll_empty s.mountFindings hevents hnext hoverflow
  rw [State.mountStart_eq]
  have hframe := State.recordAll_frame s.mountFindings s.mounting
  generalize s.mounting.recordAll s.mountFindings = t at *
  have hstreams : t.committed.tables.streams = streamsAtMount s.catSegs s.flash := by
    rw [hframe]; exact tablesAtMount_streams s.catSegs s.flash
  have htorn : tornOf t.flash ⟨t.tick, t.timeUnset⟩ t.committed.tables.streams =
      tornOf s.flash s.stamp (streamsAtMount s.catSegs s.flash) := by rw [hstreams, hframe]; rfl
  have hfaults : fuseFaultsOf t.fuses ⟨t.tick, t.timeUnset⟩ = fuseFaultsOf s.fuses s.stamp := by rw [hframe]; rfl
  have hfuses : t.settle.fuses = s.fuses := by rw [hframe]; rfl
  have hcopies : t.settle.committed.fuse = s.fuses.copies := by rw [hframe]; rfl
  constructor
  case fresh => rw [hframe]; exact ⟨rfl, rfl, rfl, rfl, rfl, rfl, rfl, rfl, rfl⟩
  case sample => rw [hframe]; exact ⟨rfl, rfl⟩
  case table =>
    have hprofiles : t.settle.committed.profiles = (mountedTable s.fuses).1 := by rw [hframe]; rfl
    rw [hprofiles, hcopies, hfuses, FuseStore.copies, ← FuseStore.loadTable_eq_mountedTable]
  case identity =>
    rw [hcopies, hfuses]
    exact ⟨rfl, rfl⟩
  case guard =>
    rw [hcopies, hfuses]
    exact ⟨rfl, rfl⟩
  case bank =>
    rw [hcopies, hfuses]
    rfl
  case label =>
    rw [hcopies, hfuses]
    exact s.fuses.copies_label
  case events =>
    refine ⟨hwhat.trans ?_, hnumber, hnextEvent, hlost.trans ?_⟩ <;>
      simp only [State.settle_committed, State.settle_fuses, State.settle_flash, State.settle_tick, State.settle_timeUnset,
        hfaults, htorn] <;> rfl
  case alarms =>
    simp only [State.settle_committed, State.settle_fuses, State.settle_flash, State.settle_tick, State.settle_timeUnset,
      State.settle_alarms, State.settle_tornFound, hfaults, htorn]
    rw [hframe]
    refine ⟨rfl, ?_⟩
    rw [State.mounting, halarms]
    dsimp only
    exact congrArg (· ||| _) BitVec.zero_or

/-! ### What every mount begun so reports (R148, R172, R178) -/

theorem MountBegun.found {t : State} (h : MountBegun t) {e : Event} (he : e ∈ t.events) :
    e.what ∈ fuseFaultsOf t.fuses ⟨t.tick, t.timeUnset⟩ ∨
      e.what ∈ tornOf t.flash ⟨t.tick, t.timeUnset⟩ t.committed.tables.streams := by
  obtain ⟨hwhat, -⟩ := h.events
  have hmem : e.what ∈ t.events.map Event.what := List.mem_map_of_mem he
  rw [hwhat] at hmem
  exact List.mem_append.mp (List.mem_of_mem_take hmem)

theorem MountBegun.event_kind {t : State} (h : MountBegun t) {e : Event} (he : e ∈ t.events) :
    e.what.kind = .fuseFault ∨ e.what.kind = .tornRecord :=
  (h.found he).imp fuseFaultsOf_kind tornOf_kind

theorem MountBegun.fuse_alarm {t : State} (h : MountBegun t) :
    t.alarms.getLsbD 2 = true ↔ ∃ e ∈ t.events, e.what.kind = .fuseFault := by
  have hbit : t.alarms.getLsbD 2 = true ↔ fuseFaultsOf t.fuses ⟨t.tick, t.timeUnset⟩ ≠ [] := by
    rw [h.alarms.2]
    split <;> split <;> simp_all
  rw [hbit]
  constructor
  · intro hne
    obtain ⟨x, xs, hx⟩ := List.exists_cons_of_ne_nil hne
    obtain ⟨hwhat, -⟩ := h.events
    have hmem : x ∈ t.events.map Event.what := by
      rw [hwhat, hx, List.cons_append, List.take_succ_cons]
      exact List.mem_cons_self
    obtain ⟨e, he, rfl⟩ := List.mem_map.mp hmem
    exact ⟨e, he, fuseFaultsOf_kind (hx ▸ List.mem_cons_self)⟩
  · rintro ⟨e, he, hkind⟩ hnil
    rcases h.found he with hfuse | htorn
    · rw [hnil] at hfuse
      cases hfuse
    · rw [tornOf_kind htorn] at hkind
      cases hkind

theorem MountBegun.torn_alarm {t : State} (h : MountBegun t) : t.alarms.getLsbD 5 = true ↔ 0 < t.tornFound := by
  obtain ⟨hcount, halarms⟩ := h.alarms
  rw [hcount, halarms, List.length_pos_iff]
  split <;> split <;> simp_all

theorem MountBegun.other_alarms {t : State} (h : MountBegun t) : t.alarms &&& 0x1B = 0 := by
  rw [h.alarms.2]
  split <;> split <;> decide

theorem State.mountStart_frame (s : State) : s.mountStart = { s.mounting with
    events := s.mountStart.events
    nextEvent := s.mountStart.nextEvent
    overflow := s.mountStart.overflow } := by
  rw [State.mountStart_eq]
  exact State.recordAll_frame _ _

theorem State.alertLevel_of_mounting {s : State} (h : s.dev = .mounting) : s.alertLevel = false := by
  simp [State.alertLevel, h]

/-- The mount after the reports were emptied, or after a reset (R168, R170). -/
theorem State.released_begun (s : State) (rb : ReadBack) : MountBegun (s.released rb).settle := by
  rw [State.released, State.hardwareStop_eq]
  exact State.mountStart_begun rfl rfl rfl rfl

theorem State.drainDone_begun (s : State) : MountBegun s.drainDone.settle := State.mountStart_begun rfl rfl rfl rfl

/-- What the end of the drain leaves of the state before (R168). -/
theorem State.drainEnd_mounts {s : State} (hdev : s.dev = .resetting) (hreset : s.resetLow = false) (hjob : s.job = none) :
    exec .drainEnd s = .next s.drainDone.settle := by
  have hdo : s.doDrainEnd = s.drainDone := if_pos ⟨hdev, hreset, hjob⟩
  exact congrArg (fun v => Host.Outcome.next v.settle) hdo

theorem State.resetRelease_mounts {s : State} {supply : Bool} (h : s.resetLow = !supply) (rb : ReadBack) :
    exec (.resetRelease supply rb) s = .next (s.released rb).settle := by
  have hdo : s.doResetRelease supply rb = s.released rb := by
    rw [State.doResetRelease]
    cases supply
    · rw [if_neg (by decide), if_pos (by rw [h]; rfl)]
    · rw [if_pos rfl, if_neg (by rw [h]; decide)]
  exact congrArg (fun v => Host.Outcome.next v.settle) hdo

/-! ### Operations that end in the drain (R102, R168) -/

/-- The second of a unit follows a first that verified, and nothing else follows (R168). -/
theorem State.drainEnds_of_partner {s : State} {j : Job} {op : Operation} {stage : Stage} (h : unitPartner j = some (op, stage))
    (ok : Bool) : (s.drainEnds j ok).job = if ok then some ⟨j.task, op, stage⟩ else none := by
  rw [State.drainEnds, h]
  cases ok <;> rfl

theorem State.drainEnds_alone {s : State} {j : Job} (h : unitPartner j = none) (ok : Bool) :
    (s.drainEnds j ok).job = none := by rw [State.drainEnds, h]

theorem State.drainEnds_frame (s : State) (j : Job) (ok : Bool) :
    s.drainEnds j ok = { s with job := (s.drainEnds j ok).job } := by
  rw [State.drainEnds]
  cases unitPartner j with
  | none => rfl
  | some x => cases ok <;> rfl

theorem unitPartner_eq_none {task : Machine.Task} {op : Operation} {stage : Stage} (hbody : ∀ a seg slot, stage ≠ .body a seg slot)
    (hguard : ∀ x, stage ≠ .guardAttempt x) (hbank : ∀ x, stage ≠ .bankMarker x) (hlabel : ∀ x, stage ≠ .labelMarker x) :
    unitPartner ⟨task, op, stage⟩ = none := by
  cases stage
  case body => exact absurd rfl (hbody _ _ _)
  case guardAttempt => exact absurd rfl (hguard _)
  case bankMarker => exact absurd rfl (hbank _)
  case labelMarker => exact absurd rfl (hlabel _)
  all_goals rfl

/-- An operation of the array or the fuse store ends in the drain. -/
theorem State.drains_eq {s : State} {j : Job} (hdev : s.dev = .resetting) (rb : ReadBack) (tripped : Bool) :
    s.operationEnds j rb tripped =
      (s.land j.op rb tripped).drainEnds j ((s.land j.op rb tripped).verified j.op rb && !tripped) := by
  have hland : (s.land j.op rb tripped).dev = .resetting := by rw [State.land_frame]; exact hdev
  exact if_pos hland

theorem exec_arrayEnd_draining {s : State} {j : Job} (hdev : s.dev = .resetting) (hjob : s.job = some j)
    (harray : j.op.isArray = true) (rb : ReadBack) (trip : Bool) :
    exec (if trip then .arrayWatchdogTrip rb else .arrayOperationComplete rb) s =
      .next ((s.land j.op rb trip).drainEnds j ((s.land j.op rb trip).verified j.op rb && !trip)).settle := by
  have hdo (b : Bool) : s.doArrayEnd rb b = s.operationEnds j rb b := by
    rw [State.doArrayEnd, hjob]
    exact if_pos harray
  cases trip <;> exact congrArg (fun v => Host.Outcome.next v.settle) ((hdo _).trans (State.drains_eq hdev rb _))

theorem exec_fuseEnd_draining {s : State} {j : Job} (hdev : s.dev = .resetting) (hjob : s.job = some j)
    (hfuse : j.op.isFuse = true) (rb : ReadBack) :
    exec (.fuseOperationComplete rb) s =
      .next ((s.land j.op rb false).drainEnds j ((s.land j.op rb false).verified j.op rb)).settle := by
  have hdo : s.doFuseEnd rb = s.operationEnds j rb false := by
    rw [State.doFuseEnd, hjob]
    exact if_pos hfuse
  have hends := hdo.trans (State.drains_eq hdev rb false)
  rw [Bool.not_false, Bool.and_true] at hends
  exact congrArg (fun v => Host.Outcome.next v.settle) hends

/-- An operation of the array leaves the fuse store alone. -/
theorem State.land_fuses_of_array (s : State) {op : Operation} (h : op.isArray = true) (rb : ReadBack) (tripped : Bool) :
    (s.land op rb tripped).fuses = s.fuses := by
  cases op
  case fuseCell | fuseBytes => cases h
  all_goals rfl

/-- An operation of the fuse store leaves the array alone. -/
theorem State.land_array_of_fuse (s : State) {op : Operation} (h : op.isFuse = true) (rb : ReadBack) (tripped : Bool) :
    (s.land op rb tripped).flash = s.flash ∧ (s.land op rb tripped).catSegs = s.catSegs := by
  cases op
  case fuseCell | fuseBytes => exact ⟨rfl, rfl⟩
  all_goals cases h

/-- An array operation that ends in the drain (R47, R60, R102, R168). -/
theorem arrayEnd_draining {s : State} {task : Machine.Task} {op : Operation} {stage : Stage} (hdev : s.dev = .resetting)
    (hjob : s.job = some ⟨task, op, stage⟩) (harray : op.isArray = true) (hform : ArrayForm s) (rb : ReadBack) (trip : Bool) :
    ∃ t, exec (if trip then .arrayWatchdogTrip rb else .arrayOperationComplete rb) s = .next t ∧
       t = { s with job := t.job, flash := t.flash, catSegs := t.catSegs, alertLow := t.alertLow } ∧ OnlyTarget s t op ∧
       (∀ cells timing, op = .program cells timing → rb = .asIntended → (cells.map Prod.fst).Nodup →
         ∀ x ∈ cells, readByte t.flash x.1 = x.2) ∧
       (∀ k pos e timing, op = .catEntry k pos e timing →
         (trip = false → rb = .asIntended → PositionHolds s t k pos (.entry e)) ∧
         (trip = true ∨ rb ≠ .asIntended → ∃ erased, PositionHolds s t k pos (.spent erased))) ∧
       (∀ a seg slot cells timing, stage = .body a seg slot → op = .program cells timing →
         (cells.map Prod.fst).Nodup →
         let ok := trip = false ∧ ∀ x ∈ cells, readByte t.flash x.1 = x.2
         (ok → t.job = some ⟨task,
           .program [(seg * 32768 + 512 + slot * (task.work.tables.stream a.id).slotSize + 7, 0x5A)]
             (task.work.profile task.work.activeProfile).programClass, .mark a seg slot⟩) ∧
         (¬ ok → t.job = none)) ∧
       ((∀ a seg slot, stage ≠ .body a seg slot) → (∀ x, stage ≠ .guardAttempt x) → (∀ x, stage ≠ .bankMarker x) →
         (∀ x, stage ≠ .labelMarker x) → t.job = none) := by
  refine ⟨_, exec_arrayEnd_draining hdev hjob harray rb trip, ?frame, ?target, ?program, ?entry, ?body, ?other⟩
  case frame =>
    rw [State.drainEnds_frame, State.land_frame, State.land_fuses_of_array s harray]
    rfl
  case target =>
    rw [State.drainEnds_frame]
    exact (s.land_onlyTarget op rb trip).congr rfl rfl rfl rfl rfl rfl
  case program =>
    rintro cells timing rfl rfl hnodup x hx
    rw [State.drainEnds_frame]
    exact readByte_writeCells_same cells hform hnodup hx
  case entry =>
    rintro k pos e timing rfl
    have hholds := s.land_catEntry k pos timing e rb trip
    rw [State.drainEnds_frame]
    refine ⟨fun htrip hrb => ?_, fun hfails => ?_⟩
    · rw [if_pos hrb, if_neg (by simp [htrip])] at hholds
      exact hholds
    · by_cases hrb : rb = .asIntended
      · have htrip : trip = true := hfails.resolve_right (fun h => h hrb)
        rw [if_pos hrb, if_pos htrip] at hholds
        exact ⟨_, hholds⟩
      · rw [if_neg hrb] at hholds
        exact ⟨_, hholds⟩
  case body =>
    rintro a seg slot cells timing rfl rfl hnodup
    have hverified : (s.land (.program cells timing) rb trip).verified (.program cells timing) rb = true ↔
        ∀ x ∈ cells, readByte (flashAfterProgram s.flash cells rb) x.1 = x.2 := by
      rw [landedCells_verified hform hnodup rb]
      exact beq_iff_eq
    dsimp only
    generalize (s.land (.program cells timing) rb trip).verified (.program cells timing) rb = verified at hverified ⊢
    have hends := State.drainEnds_of_partner (s := s.land (.program cells timing) rb trip)
      (j := ⟨task, .program cells timing, .body a seg slot⟩) rfl (verified && !trip)
    have hflash : (State.settle ((s.land (.program cells timing) rb trip).drainEnds
        ⟨task, .program cells timing, .body a seg slot⟩ (verified && !trip))).flash =
        flashAfterProgram s.flash cells rb := by
      rw [State.drainEnds_frame]
      rfl
    rw [State.settle_job, hends, hflash, ← hverified]
    refine ⟨fun ⟨htrip, hv⟩ => ?_, fun hfails => ?_⟩
    · rw [htrip, hv]
      rfl
    · exact if_neg (by simpa [and_comm] using hfails)
  case other =>
    intro hbody hguard hbank hlabel
    exact State.drainEnds_alone (unitPartner_eq_none hbody hguard hbank hlabel) _

/-- A cell that is programmed as intended is blown; a program of nothing leaves it (R145). -/
theorem FuseStore.afterCell_eq (f : FuseStore) (cell : FuseCell) (rb : ReadBack) :
    f.afterCell cell rb = if rb = .asIntended then f.afterCell cell .asIntended else f := by
  split
  · next h => rw [h]
  · next h =>
    cases cell <;> simp [FuseStore.afterCell, FuseStore.cell, h]

/-- A fuse operation that ends in the drain (R144, R150, R152, R168). -/
theorem fuseEnd_draining {s : State} {task : Machine.Task} {op : Operation} {stage : Stage} (hdev : s.dev = .resetting)
    (hjob : s.job = some ⟨task, op, stage⟩) (hfuse : op.isFuse = true) (rb : ReadBack) :
    ∃ t, exec (.fuseOperationComplete rb) s = .next t ∧
       t = { s with job := t.job, fuses := t.fuses, alertLow := t.alertLow } ∧
       (∀ cell, op = .fuseCell cell →
         t.fuses = (if rb = .asIntended then s.fuses.afterCell cell .asIntended else s.fuses) ∧
         let ok := t.fuses.cell cell = true
         (∀ second, stage = .guardAttempt second →
           (ok → t.job = some ⟨task, .fuseCell (if second then .cellB else .cellA), .guardFix second⟩) ∧
           (¬ ok → t.job = none)) ∧
         (∀ second, stage = .bankMarker second →
           (ok → t.job = some ⟨task, .fuseBytes (if second then .bankB else .bankA) (bankBytes task.work.profiles),
             .bankContents second⟩) ∧
           (¬ ok → t.job = none)) ∧
         ∀ bytes, stage = .labelMarker bytes →
           (ok → t.job = some ⟨task, .fuseBytes .label (bytes ++ checkBytes bytes), .labelContents bytes⟩) ∧
           (¬ ok → t.job = none)) ∧
       (∀ ar bytes, op = .fuseBytes ar bytes → (rb = .asIntended → t.fuses.area ar = some bytes) ∧
         (∀ x, t.fuses.cell x = s.fuses.cell x) ∧ ∀ x, x ≠ ar → t.fuses.area x = s.fuses.area x) ∧
       ((∀ a seg slot, stage ≠ .body a seg slot) → (∀ x, stage ≠ .guardAttempt x) → (∀ x, stage ≠ .bankMarker x) →
         (∀ x, stage ≠ .labelMarker x) → t.job = none) := by
  refine ⟨_, exec_fuseEnd_draining hdev hjob hfuse rb, ?frame, ?cell, ?bytes, ?other⟩
  case frame =>
    obtain ⟨hflash, hsegs⟩ := s.land_array_of_fuse hfuse rb false
    rw [State.drainEnds_frame, State.land_frame, hflash, hsegs]
    rfl
  case cell =>
    rintro cell rfl
    have hfuses : (State.settle ((s.land (.fuseCell cell) rb false).drainEnds ⟨task, .fuseCell cell, stage⟩
        ((s.land (.fuseCell cell) rb false).verified (.fuseCell cell) rb))).fuses = s.fuses.afterCell cell rb := by
      rw [State.drainEnds_frame]
      rfl
    have hverified : (s.land (.fuseCell cell) rb false).verified (.fuseCell cell) rb = (s.fuses.afterCell cell rb).cell cell := rfl
    rw [hfuses, hverified, State.settle_job]
    refine ⟨s.fuses.afterCell_eq cell rb, ?_⟩
    generalize (s.fuses.afterCell cell rb).cell cell = ok
    have hunit {op' : Operation} {stage' : Stage} (h : unitPartner ⟨task, .fuseCell cell, stage⟩ = some (op', stage')) :
        (ok = true → ((s.land (.fuseCell cell) rb false).drainEnds ⟨task, .fuseCell cell, stage⟩ ok).job =
          some ⟨task, op', stage'⟩) ∧
        (¬ ok = true → ((s.land (.fuseCell cell) rb false).drainEnds ⟨task, .fuseCell cell, stage⟩ ok).job = none) := by
      rw [State.drainEnds_of_partner h]
      exact ⟨fun hok => if_pos hok, fun hok => if_neg hok⟩
    exact ⟨fun second hstage => hunit (by rw [hstage]; rfl), fun second hstage => hunit (by rw [hstage]; rfl),
      fun bytes hstage => hunit (by rw [hstage]; rfl)⟩
  case bytes =>
    rintro ar bytes rfl
    have htarget := s.land_onlyTarget (.fuseBytes ar bytes) rb false
    rw [State.drainEnds_frame]
    refine ⟨?_, htarget.2⟩
    rintro rfl
    cases ar
    case label => rfl
    all_goals exact bankAfter_asIntended _ _
  case other =>
    intro hbody hguard hbank hlabel
    exact State.drainEnds_alone (unitPartner_eq_none hbody hguard hbank hlabel) _

/-- Settles O32: the end of the drain and a release start the mount; the operation left to finish ends in its own target. -/
theorem mountStartsAfterResets : Obligations.MountStartsAfterResets := by
  refine ⟨fun s hdev hreset hjob => ?drain, fun s rb supply hreset => ?release, fun s rb hreset => ?low,
    fun s task op stage rb trip hdev hjob harray hform => arrayEnd_draining hdev hjob harray hform rb trip,
    fun s task op stage rb hdev hjob hfuse => fuseEnd_draining hdev hjob hfuse rb⟩
  case drain =>
    have hbegun := s.drainDone_begun
    refine ⟨_, State.drainEnd_mounts hdev hreset hjob, hbegun, hbegun.fresh.1, ?_⟩
    obtain ⟨-, -, hsampled, hlow, harmed, -⟩ := hbegun.fresh
    obtain ⟨hsample, hindex⟩ := hbegun.sample
    have hframe : s.drainDone = _ := s.clearReports.mountStart_frame
    have halert : s.drainDone.settle.alertLow = false := State.alertLevel_of_mounting hbegun.fresh.1
    refine ⟨?_, ?_, hsampled, hlow, harmed, hsample, hindex, halert, hbegun.events.2.1, fun e => hbegun.event_kind,
      hbegun.fuse_alarm, hbegun.torn_alarm, hbegun.other_alarms, ?_⟩ <;> rw [hframe]
    · rfl
    · rfl
    · exact ⟨rfl, rfl, rfl, rfl, rfl, fun _ => rfl⟩
  case release =>
    have hbegun := s.released_begun rb
    obtain ⟨hsample, hindex⟩ := hbegun.sample
    have halert : (s.released rb).settle.alertLow = false := State.alertLevel_of_mounting hbegun.fresh.1
    have hstopped : OnlyStopped s (s.released rb).settle := (s.released_onlyStopped rb).congr rfl rfl rfl rfl rfl rfl rfl
    have hframe : s.released rb = _ := State.mountStart_frame { s.hardwareStop rb with resetLow := false }
    rw [s.hardwareStop_eq rb] at hframe
    have htxn : (s.released rb).settle.txn = s.cutTransaction := by rw [hframe]; rfl
    refine ⟨_, State.resetRelease_mounts hreset rb, hbegun, ?_, hbegun.fresh.1, ?_, ?_, ?_, ?_, ?_, ?_, ?_, ?_, ?_, ?_, halert,
      ?_, fun e => hbegun.event_kind, hbegun.other_alarms, hsample, hindex,
      fun hlow => (State.cutTransaction_of_low hlow).imp fun _ h => htxn.trans h, hstopped⟩
    all_goals rw [hframe]; rfl
  case low => exact ⟨_, congrArg (fun v => Host.Outcome.next (State.settle v)) (if_pos hreset), rfl, rfl⟩

end Sys2Proof.Machine
end

section
/-! What the mount rebuilds from the array: the newest image and its entries, the streams, the segments to be made DIRTY. -/

namespace Sys2Proof.Machine

/-! ### The newest image (R64) -/

theorem catSegAt_of_getElem? {segs : List CatSegment} {k : Nat} {c : CatSegment} (h : segs[k]? = some c) :
    catSegAt segs k = c := by rw [catSegAt, List.getD_eq_getElem?_getD, h]; rfl

theorem CatSegment.valid_iff (c : CatSegment) : c.valid = true ↔ c.mark = true ∧ c.generation ≠ none ∧ c.image ≠ none := by
  rw [CatSegment.valid]
  cases c.mark <;> cases c.generation <;> cases c.image <;> simp

/-- Among segments one of which is newer than every other, the choice is that one. -/
theorem foldl_newerOf {segs : List CatSegment} {k : Nat} : ∀ (js : List Nat) (i : Nat), k ∈ i :: js →
    (∀ j ∈ i :: js, j ≠ k → (catSegAt segs j).generation.getD 0 < (catSegAt segs k).generation.getD 0) →
    js.foldl (newerOf segs) i = k
  | [], i, hmem, _ => (List.mem_singleton.mp hmem).symm
  | j :: js, i, hmem, hnewer => by
    have hchoice : newerOf segs i j = i ∨ newerOf segs i j = j := by
      unfold newerOf
      dsimp only
      repeat' split
      all_goals simp
    have hkeeps : k = i ∨ k = j → newerOf segs i j = k := by
      have hi : i ≠ k → _ := hnewer i List.mem_cons_self
      have hj : j ≠ k → _ := hnewer j (List.mem_cons_of_mem i List.mem_cons_self)
      unfold newerOf
      dsimp only
      rintro (rfl | rfl)
      · by_cases hjk : j = k
        · rw [hjk]; simp
        · rw [if_neg (BitVec.not_lt.mpr (BitVec.le_of_lt (hj hjk))), if_pos (hj hjk)]
      · by_cases hik : i = k
        · rw [hik]; simp
        · rw [if_pos (hi hik)]
    refine foldl_newerOf js (newerOf segs i j) ?_ fun x hx hxk => ?_
    · rcases List.mem_cons.mp hmem with hk | hk
      · exact List.mem_cons.mpr (.inl (hkeeps (.inl hk)).symm)
      · rcases List.mem_cons.mp hk with hk | hk
        · exact List.mem_cons.mpr (.inl (hkeeps (.inr hk)).symm)
        · exact List.mem_cons_of_mem _ hk
    · refine hnewer x ?_ hxk
      rcases List.mem_cons.mp hx with rfl | hx
      · rcases hchoice with h | h <;> rw [h] <;> simp
      · exact List.mem_cons_of_mem i (List.mem_cons_of_mem j hx)

theorem newestImage_eq_some {segs : List CatSegment} {k : Nat} (hk : k < 4) (hvalid : (catSegAt segs k).valid = true)
    (hnewer : ∀ j, j < 4 → j ≠ k → (catSegAt segs j).valid = true →
      (catSegAt segs j).generation.getD 0 < (catSegAt segs k).generation.getD 0) : newestImage segs = some k := by
  have hmem : k ∈ (List.range firstData).filter (fun k => (catSegAt segs k).valid) :=
    List.mem_filter.mpr ⟨List.mem_range.mpr hk, hvalid⟩
  rw [newestImage]
  cases hlist : (List.range firstData).filter (fun k => (catSegAt segs k).valid) with
  | nil => rw [hlist] at hmem; cases hmem
  | cons i js =>
    rw [hlist] at hmem
    refine congrArg some (foldl_newerOf js i hmem fun j hj hjk => ?_)
    rw [← hlist] at hj
    obtain ⟨hlt, hjv⟩ := List.mem_filter.mp hj
    exact hnewer j (List.mem_range.mp hlt) hjk hjv

theorem newestImage_eq_none {segs : List CatSegment} (h : ∀ j, j < 4 → (catSegAt segs j).valid = false) :
    newestImage segs = none := by
  have hnil : (List.range firstData).filter (fun k => (catSegAt segs k).valid) = [] :=
    List.filter_eq_nil_iff.mpr fun j hj => by rw [h j (List.mem_range.mp hj)]; decide
  rw [newestImage, hnil]

theorem CatSegment.readsErased_iff (c : CatSegment) : c.readsErased = true ↔
    c.generation = none ∧ c.pages = 0 ∧ c.image = none ∧ c.mark = false ∧ c.soiled = false ∧
      ∀ p ∈ c.positions, p = .spent true := by
  have hposition (p : Position) : p.readsErased = true ↔ p = .spent true := by
    cases p <;> simp [Position.readsErased]
  rw [CatSegment.readsErased]
  simp only [Bool.and_eq_true, Option.isNone_iff_eq_none, beq_iff_eq, Bool.not_eq_true', List.all_eq_true, hposition]
  tauto

theorem rebuild_newest {segs : List CatSegment} {k : Nat} {g : Word} {image : Tables} {c : CatSegment}
    (hlen : segs.length = 4) (hk : segs[k]? = some c) (hmark : c.mark = true) (hgen : c.generation = some g)
    (himage : c.image = some image)
    (hnewest : ∀ j d g', segs[j]? = some d → j ≠ k → d.mark = true → d.image ≠ none → d.generation = some g' →
      g'.toNat < g.toNat) :
    rebuild segs = (applyPositions image c.positions, ⟨some k, usedPositions c.positions, g, false⟩, .image) := by
  have hat : catSegAt segs k = c := catSegAt_of_getElem? hk
  have hlt : k < 4 := hlen ▸ (List.getElem?_eq_some_iff.mp hk).1
  have hnewestImage : newestImage segs = some k := by
    refine newestImage_eq_some hlt ?_ fun j hj hjk hjv => ?_
    · rw [hat, CatSegment.valid_iff, hgen, himage]
      exact ⟨hmark, Option.some_ne_none _, Option.some_ne_none _⟩
    · obtain ⟨d, hd⟩ : ∃ d, segs[j]? = some d := ⟨_, List.getElem?_eq_getElem (hlen ▸ hj)⟩
      rw [catSegAt_of_getElem? hd] at hjv ⊢
      obtain ⟨hdmark, hdgen, hdimage⟩ := d.valid_iff.mp hjv
      obtain ⟨g', hg'⟩ := Option.ne_none_iff_exists'.mp hdgen
      rw [hat, hgen, hg']
      exact hnewest j d g' hd hjk hdmark hdimage hg'
  rw [rebuild, hnewestImage]
  dsimp only
  rw [hat, hgen, himage]
  rfl

theorem rebuild_none {segs : List CatSegment} (hlen : segs.length = 4)
    (h : ∀ c ∈ segs, ¬ (c.mark = true ∧ c.generation ≠ none ∧ c.image ≠ none)) :
    rebuild segs = (Tables.fresh, ⟨none, 0, 0, false⟩, if segs.all CatSegment.readsErased then .fresh else .faulted) := by
  have hnone : newestImage segs = none := by
    refine newestImage_eq_none fun j hj => ?_
    obtain ⟨d, hd⟩ : ∃ d, segs[j]? = some d := ⟨_, List.getElem?_eq_getElem (hlen ▸ hj)⟩
    rw [catSegAt_of_getElem? hd]
    exact Bool.eq_false_iff.mpr fun hv => h d (List.mem_of_getElem? hd) (d.valid_iff.mp hv)
  rw [rebuild, hnone]
  rfl

/-! ### The streams (R76) -/

/-- An address of a segment's slots lies in one of its slots (R46). -/
theorem inSlots_slot {seg size : Nat} (hsize : size ∈ [64, 128, 256, 512]) {c : Host.Cell} (h : inSlots seg c) :
    slotIndex seg size c.1 < slotsPerSegment size ∧
      ∃ b < size, c.1 = slotBase seg size (slotIndex seg size c.1) + b := by
  obtain ⟨hin, hpage⟩ := h
  have hpos : 0 < size := by
    simp only [List.mem_cons, List.not_mem_nil, or_false] at hsize
    omega
  have hdecomp := Nat.div_add_mod (c.1 - segBase seg - pageSize) size
  constructor
  · have hend : c.1 < segBase seg + segmentSize := by
      rw [inSegment, Bool.and_eq_true, decide_eq_true_iff, decide_eq_true_iff] at hin
      exact hin.2
    rw [slotIndex]
    refine Nat.div_lt_of_lt_mul ?_
    rw [Nat.mul_comm, slotsPerSegment_mul hsize]
    simp only [segmentSize, pageSize] at hend hpage ⊢
    omega
  · refine ⟨(c.1 - segBase seg - pageSize) % size, Nat.mod_lt _ hpos, ?_⟩
    rw [slotBase, slotIndex, Nat.mul_comm]
    omega

theorem usedSlots_le_slotsPerSegment (m : List Host.Cell) (seg : Nat) {size : Nat} (hsize : size ∈ [64, 128, 256, 512]) :
    usedSlots m seg size ≤ slotsPerSegment size :=
  (usedSlots_le_iff m seg size _).mpr fun _ _ hin => (inSlots_slot hsize hin).1

/-- The last used slot does not read erased (R76). -/
theorem lastUsedSlot_programmed {m : List Host.Cell} (hwf : Memory.wf m = true) {seg size : Nat}
    (hsize : size ∈ [64, 128, 256, 512]) (hpos : 0 < usedSlots m seg size) :
    ∃ b < size, readByte m (slotBase seg size (usedSlots m seg size - 1) + b) ≠ 0xFF := by
  have hnot : ¬ usedSlots m seg size ≤ usedSlots m seg size - 1 := by omega
  rw [usedSlots_le_iff] at hnot
  push Not at hnot
  obtain ⟨c, hc, hin, hge⟩ := hnot
  have hlt := (usedSlots_le_iff m seg size _).mp (Nat.le_refl _) c hc hin
  have hslot : slotIndex seg size c.1 = usedSlots m seg size - 1 := by omega
  obtain ⟨-, b, hb, haddr⟩ := inSlots_slot hsize hin
  refine ⟨b, hb, ?_⟩
  rw [← hslot, ← haddr, readByte_of_mem hwf hc]
  exact ((Memory.wf_iff m).mp hwf).2 c hc

theorem committedSlots_length_eq_countP {m : List Host.Cell} (hwf : Memory.wf m = true) {seg size : Nat}
    (hsize : size ∈ [64, 128, 256, 512]) : (committedSlots m seg size).length =
      (List.range (slotsPerSegment size)).countP fun i => readByte m (slotBase seg size i + markOffset) == commitMark := by
  rw [List.countP_eq_length_filter]
  refine List.Perm.length_eq ((List.perm_ext_iff_of_nodup ?_ (List.nodup_range.filter _)).mpr fun i => ?_)
  · exact (committedSlots_pairwise hwf hsize).imp (fun h => Nat.ne_of_lt h)
  · rw [mem_committedSlots hwf hsize, List.mem_filter, List.mem_range, beq_iff_eq]

/-! ### Segments made DIRTY (R54, R64) -/

/-- The cells of descriptor pages read as the array does, and nothing else is listed among them. -/
theorem readByte_filter {m : List Host.Cell} (p : Nat → Bool) (a : Nat) :
    readByte (m.filter fun c => p c.1) a = if p a then readByte m a else erasedByte := by
  induction m with
  | nil => simp [readByte]
  | cons c m ih =>
    rw [List.filter_cons]
    by_cases hc : p c.1
    · rw [if_pos hc, readByte, readByte]
      by_cases ha : c.1 = a
      · rw [if_pos ha, if_pos ha, if_pos (ha ▸ hc)]
      · rw [if_neg ha, if_neg ha, ih]
    · rw [if_neg hc, ih, readByte]
      by_cases ha : c.1 = a
      · rw [if_neg (ha ▸ hc), if_neg (ha ▸ hc)]
      · rw [if_neg ha]

theorem describedSegments_spec {m : List Host.Cell} (hwf : Memory.wf m = true) : (describedSegments m).Pairwise (· < ·) ∧
    ∀ i, i ∈ describedSegments m ↔ 4 ≤ i ∧ i < 1024 ∧ ∃ a < 512, readByte m (i * 32768 + a) ≠ 0xFF := by
  obtain ⟨hsorted, hmem⟩ := unerasedSegments_spec (filter_wf (fun c => decide (c.1 % segmentSize < pageSize)) hwf)
  refine ⟨hsorted, fun i => (hmem i).trans (and_congr_right fun _ => and_congr_right fun _ => ?_)⟩
  have hread {a : Nat} (ha : a < 32768) : readByte (m.filter fun c => decide (c.1 % segmentSize < pageSize)) (i * 32768 + a) =
      if a < 512 then readByte m (i * 32768 + a) else erasedByte := by
    have hpage : decide ((i * 32768 + a) % segmentSize < pageSize) = decide (a < 512) := by
      rw [segmentSize, pageSize, Nat.mul_add_mod_of_lt ha]
    rw [readByte_filter (fun a => decide (a % segmentSize < pageSize)), hpage]
    simp only [decide_eq_true_eq]
  constructor
  · rintro ⟨a, ha, hne⟩
    rw [hread ha] at hne
    obtain ⟨hpage, hne⟩ := ite_ne_right_iff.mp hne
    exact ⟨a, hpage, hne⟩
  · rintro ⟨a, ha, hne⟩
    refine ⟨a, by omega, ?_⟩
    rw [hread (by omega), if_pos ha]
    exact hne

theorem unrecordedSegments_spec (tb : Tables) {m : List Host.Cell} (hwf : Memory.wf m = true) :
    (unrecordedSegments tb m).Pairwise (· < ·) ∧ ∀ i, i ∈ unrecordedSegments tb m ↔
      4 ≤ i ∧ i < 1024 ∧ (tb.seg i).state = .free ∧ ∃ a < 512, readByte m (i * 32768 + a) ≠ 0xFF := by
  obtain ⟨hsorted, hmem⟩ := describedSegments_spec hwf
  refine ⟨hsorted.filter _, fun i => ?_⟩
  rw [unrecordedSegments, List.mem_filter, hmem, beq_iff_eq]
  tauto

theorem Tables.seg_of_free {tb : Tables} {i : Nat} (h : (tb.seg i).state = .free) : i < tb.segs.length := by
  by_contra hge
  rw [Tables.seg, List.getD_eq_default _ _ (Nat.le_of_not_lt hge)] at h
  cases h

/-- Segments of a table's own become DIRTY one after another, in the order given. -/
theorem foldl_addDirty (is : List Nat) : ∀ (tb : Tables), is.Nodup → (∀ i ∈ is, i < tb.segs.length) →
    (is.foldl Tables.addDirty tb).dirty = tb.dirty ++ is ∧ (is.foldl Tables.addDirty tb).usable = tb.usable ∧
      (is.foldl Tables.addDirty tb).settings = tb.settings ∧
      ∀ i, (is.foldl Tables.addDirty tb).seg i =
        if i ∈ is then { tb.seg i with state := .dirty, suspect := false } else tb.seg i := by
  induction is with
  | nil => exact fun tb _ _ => ⟨(List.append_nil _).symm, rfl, rfl, fun i => rfl⟩
  | cons j js ih =>
    intro tb hnodup hlen
    obtain ⟨hj, hjs⟩ := List.nodup_cons.mp hnodup
    have hsize : (tb.addDirty j).segs.length = tb.segs.length := List.length_set
    obtain ⟨hdirty, husable, hsettings, hseg⟩ := ih (tb.addDirty j) hjs fun i hi => by
      rw [hsize]
      exact hlen i (List.mem_cons_of_mem j hi)
    have hat (i : Nat) : (tb.addDirty j).seg i =
        if i = j then { tb.seg j with state := .dirty, suspect := false } else tb.seg i := by
      split
      · next h => rw [h]; exact Tables.seg_setSeg_same (hlen j List.mem_cons_self) _
      · next h => exact tb.seg_setSeg_other h _
    refine ⟨?_, husable, hsettings, fun i => ?_⟩
    · rw [List.foldl_cons, hdirty]
      exact List.append_assoc tb.dirty [j] js
    · rw [List.foldl_cons, hseg, hat]
      by_cases hij : i = j
      · subst hij
        rw [if_neg hj, if_pos rfl, if_pos List.mem_cons_self]
      · simp only [hij, if_false, List.mem_cons, false_or]

/-- What steps 2 to 4 leave of a rebuilt table (R54, R64, R76). -/
theorem dirtyUnrecorded_spec (tb : Tables) {m : List Host.Cell} (hwf : Memory.wf m = true) :
    ∃ is : List Nat, is.Pairwise (· < ·) ∧
      (∀ i, i ∈ is ↔ 4 ≤ i ∧ i < 1024 ∧ (tb.seg i).state = .free ∧ ∃ a < 512, readByte m (i * 32768 + a) ≠ 0xFF) ∧
      (dirtyUnrecorded tb m).dirty = tb.dirty ++ is ∧
      ∀ i, (dirtyUnrecorded tb m).seg i =
        if i ∈ is then { tb.seg i with state := .dirty, suspect := false } else tb.seg i := by
  obtain ⟨hsorted, hmem⟩ := unrecordedSegments_spec tb hwf
  obtain ⟨hdirty, -, -, hseg⟩ := foldl_addDirty (unrecordedSegments tb m) tb (hsorted.imp fun h => Nat.ne_of_lt h)
    fun i hi => Tables.seg_of_free ((hmem i).mp hi).2.2.1
  exact ⟨_, hsorted, hmem, hdirty, hseg⟩

theorem dirtyUnrecorded_rest (tb : Tables) (m : List Host.Cell) :
    (dirtyUnrecorded tb m).usable = tb.usable ∧ (dirtyUnrecorded tb m).settings = tb.settings := by
  rw [dirtyUnrecorded]
  induction unrecordedSegments tb m generalizing tb with
  | nil => exact ⟨rfl, rfl⟩
  | cons i is ih => exact ih (tb.addDirty i)

/-! ### The mount as a whole (R64, R76, R163, R171, R173) -/

theorem State.mountStart_read (s : State) : MountRead s.mountStart.settle ∧ s.mountStart.catSegs = s.catSegs ∧
    s.mountStart.flash = s.flash := by
  have hframe := s.mountStart_frame
  have hflash : s.mountStart.settle.flash = s.flash := by rw [hframe]; rfl
  have hsegs : s.mountStart.settle.catSegs = s.catSegs := by rw [hframe]; rfl
  have htables : s.mountStart.settle.committed.tables = tablesAtMount s.catSegs s.flash := by rw [hframe]; rfl
  have hperiod : s.mountStart.settle.tickPeriod =
      if (rebuild s.catSegs).2.2 = .faulted then 10 else (rebuild s.catSegs).1.settings.tickPeriod.toNat := by
    rw [hframe]; rfl
  refine ⟨?_, hsegs, hflash⟩
  constructor
  case outcome => rw [hsegs, hframe]; exact ⟨rfl, rfl⟩
  case tables =>
    rw [hsegs, htables, hflash, hperiod]
    intro hfound
    obtain ⟨husable, hsettings⟩ := dirtyUnrecorded_rest
      { (rebuild s.catSegs).1 with streams := (rebuild s.catSegs).1.streams.map (recoverStream s.flash) } s.flash
    rw [tablesAtMount, if_neg hfound, if_neg hfound]
    exact ⟨dirtyUnrecorded_streams _ _, husable, hsettings, rfl⟩
  case segments =>
    rw [hsegs, htables, hflash]
    intro hfound hwf
    rw [tablesAtMount, if_neg hfound]
    exact dirtyUnrecorded_spec
      { (rebuild s.catSegs).1 with streams := (rebuild s.catSegs).1.streams.map (recoverStream s.flash) } hwf
  case faulted =>
    rw [hsegs, htables, hperiod]
    intro hfaulted
    rw [tablesAtMount, if_pos hfaulted, if_pos hfaulted]
    exact ⟨rfl, rfl⟩

theorem State.hardwareStop_of_idle {s : State} (h : s.job = none) (rb : ReadBack) :
    (s.hardwareStop rb).catSegs = s.catSegs ∧ (s.hardwareStop rb).flash = s.flash := by
  have hcut := s.cutAttempt_frame
  have hjob : s.cutAttempt.job = none := by rw [hcut]; exact h
  have hstop : s.cutAttempt.stopOperation rb = s.cutAttempt := by rw [State.stopOperation, hjob]
  rw [State.hardwareStop, hstop]
  generalize s.cutAttempt = cut at hcut ⊢
  rw [hcut]
  exact ⟨rfl, rfl⟩

/-- Settles O34: the newest image and its entries, what the three starts of a mount rebuild, and each stream from its newest
segment. -/
theorem mountTakesNewestImage : Obligations.MountTakesNewestImage := by
  refine ⟨fun segs k g image c hlen hk hmark hgen himage hnewest => ?image, fun segs hlen hnone => ?none,
    fun s hdev hreset hjob => ?drain, fun s rb supply hreset => ?release, fun m x => ⟨?absent, ?empty, ?newest⟩⟩
  case image => exact rebuild_newest hlen hk hmark hgen himage hnewest
  case none =>
    have herased : segs.all CatSegment.readsErased = true ↔ ∀ c ∈ segs, c.generation = none ∧ c.pages = 0 ∧ c.image = none ∧
        c.mark = false ∧ c.soiled = false ∧ ∀ p ∈ c.positions, p = .spent true := by
      rw [List.all_eq_true]
      exact forall₂_congr fun c _ => c.readsErased_iff
    rw [rebuild_none hlen hnone, ← herased]
    exact ⟨rfl, rfl, fun h => if_pos h, fun h => if_neg h⟩
  case drain =>
    obtain ⟨hread, hsegs, hflash⟩ := s.clearReports.mountStart_read
    exact ⟨_, State.drainEnd_mounts hdev hreset hjob, hread, hsegs, hflash⟩
  case release =>
    obtain ⟨hread, hsegs, hflash⟩ := State.mountStart_read { s.hardwareStop rb with resetLow := false }
    refine ⟨_, State.resetRelease_mounts hreset rb, hread, fun hjob => ?_⟩
    obtain ⟨hstopSegs, hstopFlash⟩ := State.hardwareStop_of_idle hjob rb
    exact ⟨hsegs.trans hstopSegs, hflash.trans hstopFlash⟩
  case absent => exact fun h => recoverStream_of_absent m h
  case empty =>
    intro hstate hsegs
    rw [recoverStream, if_neg hstate, Stream.newest, hsegs]
    rfl
  case newest =>
    intro l hstate hnewest hwf hsize
    refine ⟨usedSlots m l.seg x.slotSize, ?_, usedSlots_le_slotsPerSegment m l.seg hsize,
      fun i hused hi b hb => readByte_unusedSlot hsize hi hused hb, fun hpos => lastUsedSlot_programmed hwf hsize hpos⟩
    rw [recoverStream_of_newest hstate hnewest, committedSlots_length_eq_countP hwf hsize]
    rfl

end Sys2Proof.Machine
end

section
/-! The end of the mount: its first sample, its conditions and its last event. -/

namespace Sys2Proof.Machine

/-! ### Recording with room in the list (R181) -/

/-- With room in the list every event is listed and nothing overflows. -/
theorem State.recordAll_room (es : List Raised) : ∀ s : State, s.events.length + es.length ≤ 16 →
    s.recordAll es = { s with events := (s.recordAll es).events, nextEvent := (s.recordAll es).nextEvent } ∧
      (s.recordAll es).events.map Event.what = s.events.map Event.what ++ es := by
  induction es with
  | nil => exact fun s _ => ⟨rfl, (List.append_nil _).symm⟩
  | cons e es ih =>
    intro s hroom
    have hlt : s.events.length < maxEvents := by rw [maxEvents]; rw [List.length_cons] at hroom; omega
    have hrecord : s.record e = { s with events := s.events ++ [⟨s.nextEvent, e⟩], nextEvent := s.nextEvent + 1 } :=
      if_pos hlt
    obtain ⟨hframe, hwhat⟩ := ih (s.record e) (by
      rw [hrecord, List.length_append]
      rw [List.length_cons] at hroom
      simp only [List.length_cons, List.length_nil]
      omega)
    have hcons : s.recordAll (e :: es) = (s.record e).recordAll es := rfl
    rw [hcons]
    refine ⟨?_, ?_⟩
    · rw [hframe, hrecord]
    · rw [hwhat, hrecord, List.map_append, List.append_assoc]
      rfl

/-- The pool comparison raises one event at the start of a descent (R66). -/
theorem State.comparePool_eq (s : State) :
    let threshold := s.committed.tables.settings.poolLowThreshold.toNat
    let available := s.committed.tables.available
    s.comparePool = State.recordAll
      { s with
        poolLow := decide (available < threshold)
        poolLowArmed := decide (threshold ≤ available) }
      (if available < threshold ∧ s.poolLowArmed = true then
        [⟨.poolLow, ⟨s.tick, s.timeUnset⟩, byteOf threshold, BitVec.ofNat 32 available⟩] else []) := by
  dsimp only
  unfold State.comparePool
  by_cases hlow : s.committed.tables.available < s.committed.tables.settings.poolLowThreshold.toNat
  · rw [if_pos hlow, decide_eq_true hlow, decide_eq_false (Nat.not_le.mpr hlow)]
    cases harmed : s.poolLowArmed with
    | false => rw [if_neg (by decide), if_neg (by simp), ← harmed]; rfl
    | true => rw [if_pos rfl, if_pos ⟨hlow, rfl⟩]; rfl
  · rw [if_neg hlow, if_neg fun h => hlow h.1, decide_eq_false hlow, decide_eq_true (Nat.le_of_not_lt hlow)]
    rfl

theorem State.record_room (e : Raised) (s : State) (hroom : s.events.length + 1 ≤ 16) :
    s.record e = { s with events := (s.record e).events, nextEvent := (s.record e).nextEvent } ∧
      (s.record e).events.map Event.what = s.events.map Event.what ++ [e] := State.recordAll_room [e] s hroom

/-! ### Steps 6 to 10 (R173) -/

/-- The mount takes its first sample from the die (R114, R173). -/
def State.samplesDie (s : State) : Bool := decide (s.mountSampled = false ∧ s.committed.activeSource = .internal)

theorem changeOf_length_le (c : Committed) (now : Stamp) (index : Nat) (v : Half) : (changeOf c now index v).length ≤ 1 := by
  unfold changeOf
  split <;> simp

/-- Steps 6 and 7 for the sources that need no bus (R114, R118, R124). -/
theorem State.mountSample_listed (s : State) (env : Env) (hroom : s.events.length + 1 ≤ 16) :
    let v := dieValue env.die
    let sampled := s.committed.sampled v .internal
    let t := s.mountSample env
    t = { s with
      committed := if s.samplesDie then sampled else s.committed
      mountSampled := t.mountSampled
      events := t.events
      nextEvent := t.nextEvent } ∧
    t.events.map Event.what = s.events.map Event.what ++
      (if s.samplesDie then changeOf s.committed ⟨s.tick, s.timeUnset⟩ sampled.activeProfile v else []) := by
  dsimp only
  have hdecide : (!s.mountSampled && s.committed.activeSource == .internal) = s.samplesDie := by
    rw [State.samplesDie, Bool.decide_and, Bool.decide_eq_false]
    rfl
  rw [State.mountSample, hdecide]
  cases s.samplesDie with
  | true =>
    simp only [if_true]
    rw [State.absorbMount, internalAttempt, attemptSucceeds_eq]
    dsimp only
    obtain ⟨hframe, hwhat⟩ := State.recordAll_room (changeOf s.committed s.stamp
      (s.committed.sampled (dieValue env.die) .internal).activeProfile (dieValue env.die))
      { s with committed := s.committed.sampled (dieValue env.die) .internal, mountSampled := true }
      (Nat.le_trans (Nat.add_le_add_left (changeOf_length_le _ _ _ _) _) hroom)
    refine ⟨?_, hwhat⟩
    rw [hframe]
  | false => exact ⟨rfl, (List.append_nil _).symm⟩

/-- The degradation of step 8 (R62, R173). -/
theorem State.mountDegrades_listed (s : State) (hroom : s.events.length + 1 ≤ 16) (one : Prop) [Decidable one] :
    let e : Raised := ⟨.catalogueDegraded, ⟨s.tick, s.timeUnset⟩, 0x01, 0xFFFFFFFF⟩
    let t := if one then (s.latch alarmCatalogueDegraded).record e else s
    t = { s with
      alarms := s.alarms ||| (if one then 0x10 else 0)
      events := t.events
      nextEvent := t.nextEvent } ∧
    t.events.map Event.what = s.events.map Event.what ++ (if one then [e] else []) := by
  dsimp only
  by_cases hone : one
  · simp only [hone, if_true]
    obtain ⟨hframe, hwhat⟩ := State.record_room ⟨.catalogueDegraded, ⟨s.tick, s.timeUnset⟩, 0x01, 0xFFFFFFFF⟩
      (s.latch alarmCatalogueDegraded) hroom
    refine ⟨?_, hwhat⟩
    rw [hframe]
    rfl
  · simp only [hone, if_false]
    refine ⟨?_, (List.append_nil _).symm⟩
    have hnone : s.alarms ||| 0 = s.alarms := BitVec.or_zero
    rw [hnone]

/-- The pool comparison of step 8 (R66). -/
theorem State.comparePool_listed (s : State) (hroom : s.events.length + 1 ≤ 16) :
    let threshold := s.committed.tables.settings.poolLowThreshold.toNat
    let available := s.committed.tables.available
    let t := s.comparePool
    t = { s with
      poolLow := decide (available < threshold)
      poolLowArmed := decide (threshold ≤ available)
      events := t.events
      nextEvent := t.nextEvent } ∧
    t.events.map Event.what = s.events.map Event.what ++ (if available < threshold ∧ s.poolLowArmed = true then
      [⟨.poolLow, ⟨s.tick, s.timeUnset⟩, byteOf threshold, BitVec.ofNat 32 available⟩] else []) := by
  have hpool := s.comparePool_eq
  dsimp only at hpool ⊢
  rw [hpool]
  refine State.recordAll_room _ _ (Nat.le_trans (Nat.add_le_add_left ?_ _) hroom)
  split <;> simp

theorem mountReadOnly_eq (c : Committed) : mountReadOnly c =
    decide (c.tables.usable.countP (· == true) = 1 ∧ c.cat.active ≠ none ∧ 768 < c.cat.fill + 8) := by
  have hroom : cataloguePositions - c.cat.fill < 8 ↔ 768 < c.cat.fill + 8 := by rw [cataloguePositions]; omega
  rw [mountReadOnly, Tables.usableCount, decide_eq_decide.mpr hroom, Bool.decide_and, Bool.decide_and, Bool.and_assoc]
  cases c.cat.active <;> rfl

/-- Step 8 (R62, R63, R64, R66). -/
theorem State.mountConditions_listed (s : State) (hroom : s.events.length + 2 ≤ 16) :
    let now : Stamp := ⟨s.tick, s.timeUnset⟩
    let tb := s.committed.tables
    let one := tb.usable.countP (· == true) = 1
    let threshold := tb.settings.poolLowThreshold.toNat
    let t := s.mountConditions
    t = { s with
      committed := { s.committed with cat := { s.committed.cat with
        readOnly := decide (one ∧ s.committed.cat.active ≠ none ∧ 768 < s.committed.cat.fill + 8) } }
      alarms := s.alarms ||| (if one then 0x10 else 0)
      poolLow := decide (tb.available < threshold)
      poolLowArmed := decide (threshold ≤ tb.available)
      events := t.events
      nextEvent := t.nextEvent } ∧
    t.events.map Event.what = s.events.map Event.what ++
      (if one then [⟨.catalogueDegraded, now, 0x01, 0xFFFFFFFF⟩] else []) ++
      (if tb.available < threshold ∧ s.poolLowArmed = true then
        [⟨.poolLow, now, byteOf threshold, BitVec.ofNat 32 tb.available⟩] else []) := by
  dsimp only
  obtain ⟨s1, hs1⟩ : ∃ s1, s1 = ({ s with committed := { s.committed with cat := { s.committed.cat with
    readOnly := mountReadOnly s.committed } } } : State) := ⟨_, rfl⟩
  obtain ⟨s2, hs2⟩ : ∃ s2, s2 = (if s1.committed.tables.usable.countP (· == true) = 1 then
    (s1.latch alarmCatalogueDegraded).record ⟨.catalogueDegraded, ⟨s1.tick, s1.timeUnset⟩, 0x01, 0xFFFFFFFF⟩ else s1) :=
      ⟨_, rfl⟩
  have hconditions : s.mountConditions = s2.comparePool := by rw [hs2, hs1]; rfl
  have hlen1 : s1.events.length = s.events.length := by rw [hs1]
  obtain ⟨hframe2, hwhat2⟩ := s1.mountDegrades_listed (by omega) (s1.committed.tables.usable.countP (· == true) = 1)
  rw [← hs2] at hframe2 hwhat2
  have hlen2 : s2.events.length + 1 ≤ 16 := by
    have hmap := congrArg List.length hwhat2
    rw [List.length_append, List.length_map, List.length_map] at hmap
    have hle : (if s1.committed.tables.usable.countP (· == true) = 1 then
      [(⟨.catalogueDegraded, ⟨s1.tick, s1.timeUnset⟩, 0x01, 0xFFFFFFFF⟩ : Raised)] else []).length ≤ 1 := by split <;> simp
    omega
  obtain ⟨hframe3, hwhat3⟩ := s2.comparePool_listed hlen2
  rw [hconditions]
  generalize s2.comparePool = t at hframe3 hwhat3 ⊢
  rw [hwhat2] at hwhat3
  rw [hframe2] at hframe3 hwhat3
  rw [hs1, mountReadOnly_eq] at hframe3 hwhat3
  exact ⟨hframe3, hwhat3⟩

/-- Steps 9 and 10 (R173, R177). -/
theorem State.mountEnd_listed (s : State) (hroom : s.events.length + 1 ≤ 16) :
    let t := s.mountEnd
    t = { s with
      dev := if s.mountOutcome = .faulted then .faulted else .running
      faultedProfile := if s.mountOutcome = .faulted then some s.committed.activeProfile else none
      events := t.events
      nextEvent := t.nextEvent } ∧
    t.events.map Event.what = s.events.map Event.what ++
      [⟨.mounted, ⟨s.tick, s.timeUnset⟩, byteOf s.tornFound, BitVec.ofNat 32
        ((match s.mountOutcome with | .image => 0 | .fresh => 1 | .faulted => 2) * 65536 +
          if s.mountOutcome = .image then s.committed.tables.streams.countP (fun x => x.state != .absent) else 0)⟩] := by
  dsimp only
  have hcode : s.mountOutcome.code = match s.mountOutcome with | .image => 0 | .fresh => 1 | .faulted => 2 := by
    cases s.mountOutcome <;> rfl
  have hevent : raised .mounted s.stamp s.tornFound (s.mountOutcome.code * 65536 + s.mountedStreams) =
      ⟨.mounted, ⟨s.tick, s.timeUnset⟩, byteOf s.tornFound, BitVec.ofNat 32
        ((match s.mountOutcome with | .image => 0 | .fresh => 1 | .faulted => 2) * 65536 +
          if s.mountOutcome = .image then s.committed.tables.streams.countP (fun x => x.state != .absent) else 0)⟩ := by
    rw [hcode]
    rfl
  rw [State.mountEnd, hevent]
  obtain ⟨hframe, hwhat⟩ := State.record_room ⟨.mounted, ⟨s.tick, s.timeUnset⟩, byteOf s.tornFound, BitVec.ofNat 32
        ((match s.mountOutcome with | .image => 0 | .fresh => 1 | .faulted => 2) * 65536 +
          if s.mountOutcome = .image then s.committed.tables.streams.countP (fun x => x.state != .absent) else 0)⟩ s hroom
  refine ⟨?_, hwhat⟩
  dsimp only
  rw [hframe]

theorem State.mountComplete_eq {s : State} (env : Env) (hdev : s.dev = .mounting) (hreset : s.resetLow = false)
    (hready : s.mountSampled = true ∨ s.committed.activeSource ≠ .external) :
    exec (.mountComplete env) s = .next (State.mountFinish { s with guardHigh := env.guardHigh } env).settle := by
  have hawaits : s.mountAwaitsSensor = false := by
    rw [State.mountAwaitsSensor]
    rcases hready with h | h
    · simp [h]
    · simp [h]
  have hobserve : s.observe env = { s with guardHigh := env.guardHigh } := by
    simp [State.observe, State.linkDecodes, hdev, hreset]
  have hdo : s.doMountComplete env = State.mountFinish { s with guardHigh := env.guardHigh } env := by
    rw [State.doMountComplete, if_pos ⟨hdev, hreset, hawaits⟩, hobserve]
  exact congrArg (fun v => Host.Outcome.next v.settle) hdo

/-- Steps 8 to 10 once the first sample stands: in FAULTED step 8 is passed by (R173, figure 9-1). -/
theorem State.mountFinish_of_sampled {s u : State} {g : Bool} {c : Committed} {sampled : Bool} {changed : List Raised}
    (hframe : u = { s with
      guardHigh := g
      committed := c
      mountSampled := sampled
      events := u.events
      nextEvent := u.nextEvent })
    (hwhat : u.events.map Event.what = s.events.map Event.what ++ changed) (hroom : u.events.length + 3 ≤ 16) :
    let now : Stamp := ⟨s.tick, s.timeUnset⟩
    let tb := c.tables
    let one := tb.usable.countP (· == true) = 1
    let faulted := s.mountOutcome = .faulted
    let threshold := tb.settings.poolLowThreshold.toNat
    let degraded : List Raised := if one ∧ ¬ faulted then [⟨.catalogueDegraded, now, 0x01, 0xFFFFFFFF⟩] else []
    let low : List Raised := if tb.available < threshold ∧ s.poolLowArmed = true ∧ ¬ faulted then
      [⟨.poolLow, now, byteOf threshold, BitVec.ofNat 32 tb.available⟩] else []
    let streams := if s.mountOutcome = .image then tb.streams.countP (fun x => x.state != .absent) else 0
    let mounted : Raised := ⟨.mounted, now, byteOf s.tornFound, BitVec.ofNat 32
      ((match s.mountOutcome with | .image => 0 | .fresh => 1 | .faulted => 2) * 65536 + streams)⟩
    let t := if u.mountOutcome = .faulted then u.mountEnd else u.mountConditions.mountEnd
    t = { s with
      dev := if faulted then .faulted else .running
      guardHigh := g
      committed := if faulted then c else { c with cat := { c.cat with
        readOnly := decide (one ∧ c.cat.active ≠ none ∧ 768 < c.cat.fill + 8) } }
      mountSampled := sampled
      events := t.events
      nextEvent := t.nextEvent
      alarms := s.alarms ||| (if one ∧ ¬ faulted then 0x10 else 0)
      poolLow := if faulted then s.poolLow else decide (tb.available < threshold)
      poolLowArmed := if faulted then s.poolLowArmed else decide (threshold ≤ tb.available)
      faultedProfile := if faulted then some c.activeProfile else none } ∧
    t.events.map Event.what = s.events.map Event.what ++ changed ++ degraded ++ low ++ [mounted] := by
  dsimp only
  have houtcome : u.mountOutcome = s.mountOutcome := by rw [hframe]
  by_cases hfaulted : s.mountOutcome = .faulted
  · obtain ⟨hframe', hwhat'⟩ := u.mountEnd_listed (by omega)
    rw [if_pos (houtcome.trans hfaulted)]
    generalize u.mountEnd = t at hframe' hwhat' ⊢
    rw [hwhat] at hwhat'
    rw [hframe] at hframe' hwhat'
    simp only [hfaulted, not_true_eq_false, and_false, if_true, if_false, List.append_nil] at hframe' hwhat' ⊢
    refine ⟨hframe'.trans ?_, hwhat'⟩
    have hnone : s.alarms ||| 0 = s.alarms := BitVec.or_zero
    rw [hnone]
  · obtain ⟨hframe2, hwhat2⟩ := u.mountConditions_listed (by omega)
    have hlen : u.mountConditions.events.length + 1 ≤ 16 := by
      have hmap := congrArg List.length hwhat2
      rw [List.length_append, List.length_append, List.length_map, List.length_map] at hmap
      have hle {p : Prop} [Decidable p] (e : Raised) : (if p then [e] else []).length ≤ 1 := by split <;> simp
      have h1 := hle (p := u.committed.tables.usable.countP (· == true) = 1)
        ⟨.catalogueDegraded, ⟨u.tick, u.timeUnset⟩, 0x01, 0xFFFFFFFF⟩
      have h2 := hle (p := u.committed.tables.available < u.committed.tables.settings.poolLowThreshold.toNat ∧
        u.poolLowArmed = true) ⟨.poolLow, ⟨u.tick, u.timeUnset⟩,
          byteOf u.committed.tables.settings.poolLowThreshold.toNat, BitVec.ofNat 32 u.committed.tables.available⟩
      omega
    rw [if_neg (by rw [houtcome]; exact hfaulted)]
    obtain ⟨hframe3, hwhat3⟩ := u.mountConditions.mountEnd_listed hlen
    generalize u.mountConditions.mountEnd = t at hframe3 hwhat3 ⊢
    generalize u.mountConditions = v at hframe2 hwhat2 hframe3 hwhat3
    rw [hwhat2, hwhat] at hwhat3
    rw [hframe2] at hframe3 hwhat3
    rw [hframe] at hframe3 hwhat3
    simp only [hfaulted, not_false_eq_true, and_true, if_false] at hframe3 hwhat3 ⊢
    exact ⟨hframe3, hwhat3⟩

/-- Settles O35: the first sample, the conditions unless no catalogue was found, and MOUNTED, with room for their events. -/
theorem mountCompletes : Obligations.MountCompletes := by
  intro s env hdev hreset hready hroom
  dsimp only
  refine ⟨_, State.mountComplete_eq env hdev hreset hready, ?_⟩
  obtain ⟨hframe, hwhat⟩ := State.mountSample_listed { s with guardHigh := env.guardHigh } env (by dsimp only; omega)
  have hdie : State.samplesDie { s with guardHigh := env.guardHigh } =
      decide (s.mountSampled = false ∧ s.committed.activeSource = .internal) := rfl
  rw [hdie] at hframe hwhat
  dsimp only at hframe hwhat
  rw [State.mountFinish]
  generalize State.mountSample { s with guardHigh := env.guardHigh } env = u at hframe hwhat ⊢
  have hlen : u.events.length + 3 ≤ 16 := by
    have hmap := congrArg List.length hwhat
    rw [List.length_append, List.length_map, List.length_map] at hmap
    have hle : (if decide (s.mountSampled = false ∧ s.committed.activeSource = .internal) = true then
        changeOf s.committed ⟨s.tick, s.timeUnset⟩ (s.committed.sampled (dieValue env.die) .internal).activeProfile
          (dieValue env.die) else []).length ≤ 1 := by
      split
      · exact changeOf_length_le _ _ _ _
      · exact Nat.zero_le _
    omega
  generalize decide (s.mountSampled = false ∧ s.committed.activeSource = .internal) = first at hframe hwhat ⊢
  have hc : (if first = true then s.committed.sampled (dieValue env.die) .internal else s.committed).tables =
      s.committed.tables ∧ (if first = true then s.committed.sampled (dieValue env.die) .internal else s.committed).cat =
      s.committed.cat := by cases first <;> exact ⟨rfl, rfl⟩
  obtain ⟨htables, hcat⟩ := hc
  have hchanged : (if first = true then changeOf s.committed ⟨s.tick, s.timeUnset⟩
        (if first = true then s.committed.sampled (dieValue env.die) .internal else s.committed).activeProfile
        (dieValue env.die) else []) = if first = true then changeOf s.committed ⟨s.tick, s.timeUnset⟩
        (s.committed.sampled (dieValue env.die) .internal).activeProfile (dieValue env.die) else [] := by
    cases first <;> rfl
  rw [hchanged]
  generalize (if first = true then s.committed.sampled (dieValue env.die) .internal else s.committed) = c at htables hcat hframe ⊢
  have hfinish := State.mountFinish_of_sampled hframe hwhat hlen
  dsimp only at hfinish ⊢
  rw [htables, hcat] at hfinish
  generalize (if u.mountOutcome = .faulted then u.mountEnd else u.mountConditions.mountEnd) = t at hfinish ⊢
  obtain ⟨hleft, hlisted⟩ := hfinish
  refine ⟨?_, ?_, hlisted, ?_, ?_, ?_, ?_, ?_⟩
  all_goals rw [hleft]
  case refine_2 => rw [htables]; rfl
  case refine_7 => exact fun _ => rfl
  all_goals rfl

end Sys2Proof.Machine
end

section
/-! The ends of fuse operations in RUNNING: markers, contents, the label and the guard-fix cells. -/

namespace Sys2Proof.Machine

/-- All but the array and the fuse store stands when an operation lands. -/
theorem State.land_arraysLeft (s : State) (op : Operation) (rb : ReadBack) (tripped : Bool) :
    ArraysLeft s (s.land op rb tripped) := s.land_frame op rb tripped

section
variable {s u : State} {t : Machine.Task} {i : Nat} {r : Request}

/-! ### What follows each stage (R143, R144, R148, R150, R152) -/

theorem State.bankMarkerEnds_verified (hu : ArraysLeft s u) (second : Bool) :
    GoesOn s (u.bankMarkerEnds t second true).settle t (.fuseBytes (if second then .bankB else .bankA)
      (bankBytes t.work.profiles)) (.bankContents second) := State.begin_goesOn hu t _ _

/-- A fuse fault met in programming ends the request FUSE_FAULT, with its event and its alarm (R148). -/
theorem State.fuseFault_completes (hu : ArraysLeft s u) (hd : s.dev = .running) (ho : t.owner = .request i r)
    (f : FuseCopies) (cause object : Nat) (payload : List Byte) :
    Completes s (u.complete ((t.setFuse f).fuseFault u.stamp cause object) .fuseFault payload).settle i r .fuseFault payload
      { t.work with fuse := f }
      (t.events ++ [⟨.fuseFault, ⟨s.tick, s.timeUnset⟩, byteOf cause, BitVec.ofNat 32 object⟩]) (t.alarms ||| 0x04) := by
  have hstamp : u.stamp = ⟨s.tick, s.timeUnset⟩ := by rw [hu]; rfl
  have hdone := State.complete_completes hu.leftBy (t := (t.setFuse f).fuseFault u.stamp cause object) ho hd .fuseFault payload
  rw [hstamp] at hdone ⊢
  exact hdone

/-- FIX_GUARD without a blown cell ends FUSE_FAULT with the alarm and no event (R144, R148). -/
theorem State.guardFails_completes (hu : ArraysLeft s u) (hd : s.dev = .running) (ho : t.owner = .request i r)
    (f : FuseCopies) : Completes s (u.guardFails (t.setFuse f)).settle i r .fuseFault [] { t.work with fuse := f } t.events
      (t.alarms ||| 0x04) :=
  State.complete_completes hu.leftBy (t := (t.setFuse f).latch alarmFuseFault) ho hd .fuseFault []

theorem State.bankMarkerEnds_failed (hu : ArraysLeft s u) (hd : s.dev = .running) (ho : t.owner = .request i r) (second : Bool) :
    Completes s (u.bankMarkerEnds t second false).settle i r .fuseFault
      [match t.work.fuse.bank with | .fresh => 0x00 | .aUsed => 0x01 | .bUsed => 0x02, if second then 0x02 else 0x01]
      t.work (t.events ++ [⟨.fuseFault, ⟨s.tick, s.timeUnset⟩, 0x04, if second then 2 else 1⟩]) (t.alarms ||| 0x04) := by
  have hdone := State.fuseFault_completes hu hd ho t.work.fuse 4 (bankNumber second)
    [t.work.fuse.bank.code, byteOf (bankNumber second)]
  have hcode : t.work.fuse.bank.code = match t.work.fuse.bank with | .fresh => 0x00 | .aUsed => 0x01 | .bUsed => 0x02 := by
    cases t.work.fuse.bank <;> rfl
  rw [State.bankMarkerEnds, if_neg (by decide), hcode]
  rw [hcode] at hdone
  cases second <;> exact hdone

theorem State.bankContentsEnds_next (hu : ArraysLeft s u) (hd : s.dev = .running) (ho : t.owner = .request i r)
    (second ok : Bool) :
    let reply : List Byte := if second then [0x02, 0x02] else [0x01, 0x01]
    let c : Committed := { t.work with fuse := { t.work.fuse with bank := if second then .bUsed else .aUsed } }
    (ok = true → Completes s (u.bankContentsEnds t second ok).settle i r .ok reply c t.events t.alarms) ∧
    (¬ ok = true → Completes s (u.bankContentsEnds t second ok).settle i r .fuseFault reply c
      (t.events ++ [⟨.fuseFault, ⟨s.tick, s.timeUnset⟩, 0x05, if second then 2 else 1⟩]) (t.alarms ||| 0x04)) := by
  have hreply : [(bankUsed second).code, byteOf (bankNumber second)] = if second then [0x02, 0x02] else [0x01, 0x01] := by
    cases second <;> rfl
  dsimp only
  rw [State.bankContentsEnds, hreply]
  refine ⟨fun hok => ?_, fun hfails => ?_⟩
  · rw [if_pos hok]
    exact State.complete_completes hu.leftBy (t := t.setFuse { t.work.fuse with bank := bankUsed second }) ho hd .ok _
  · have hdone := State.fuseFault_completes hu hd ho { t.work.fuse with bank := bankUsed second } 5 (bankNumber second)
      (if second then [0x02, 0x02] else [0x01, 0x01])
    rw [if_neg hfails]
    cases second <;> exact hdone

theorem State.labelMarkerEnds_next (hu : ArraysLeft s u) (hd : s.dev = .running) (ho : t.owner = .request i r)
    (bytes : List Byte) (ok : Bool) :
    (ok = true → GoesOn s (u.labelMarkerEnds t bytes ok).settle t (.fuseBytes .label (bytes ++ checkBytes bytes))
      (.labelContents bytes)) ∧
    (¬ ok = true → Completes s (u.labelMarkerEnds t bytes ok).settle i r .fuseFault [0x00] t.work
      (t.events ++ [⟨.fuseFault, ⟨s.tick, s.timeUnset⟩, 0x06, 0⟩]) (t.alarms ||| 0x04)) := by
  rw [State.labelMarkerEnds]
  refine ⟨fun hok => ?_, fun hfails => ?_⟩
  · rw [if_pos hok]
    exact State.begin_goesOn hu t _ _
  · rw [if_neg hfails]
    exact State.fuseFault_completes hu hd ho t.work.fuse 6 0 [0x00]

/-- What the label reads when its contents failed is what the fuse store gives (R152, log 19). -/
theorem State.labelContentsEnds_next (hu : ArraysLeft s u) (hd : s.dev = .running) (ho : t.owner = .request i r)
    (bytes : List Byte) (ok : Bool) :
    (ok = true → Completes s (u.labelContentsEnds t bytes ok).settle i r .ok [0x01]
      { t.work with fuse := { t.work.fuse with labelState := .present, label := bytes } } t.events t.alarms) ∧
    (¬ ok = true → Completes s (u.labelContentsEnds t bytes ok).settle i r .fuseFault [0x02]
      { t.work with fuse := { t.work.fuse with labelState := .damaged, label := u.fuses.labelRead } }
      (t.events ++ [⟨.fuseFault, ⟨s.tick, s.timeUnset⟩, 0x07, 0⟩]) (t.alarms ||| 0x04)) := by
  rw [State.labelContentsEnds]
  refine ⟨fun hok => ?_, fun hfails => ?_⟩
  · rw [if_pos hok]
    exact State.complete_completes hu.leftBy
      (t := t.setFuse { t.work.fuse with labelState := .present, label := bytes }) ho hd .ok _
  · rw [if_neg hfails]
    exact State.fuseFault_completes hu hd ho { t.work.fuse with labelState := .damaged, label := u.fuses.labelRead } 7 0 [0x02]

theorem State.guardAttemptEnds_next (hu : ArraysLeft s u) (hd : s.dev = .running) (ho : t.owner = .request i r)
    (second ok : Bool) :
    (ok = true → GoesOn s (u.guardAttemptEnds t second ok).settle t (.fuseCell (if second then .cellB else .cellA))
      (.guardFix second)) ∧
    (¬ ok = true → Completes s (u.guardAttemptEnds t second ok).settle i r .fuseFault [] t.work t.events (t.alarms ||| 0x04)) := by
  rw [State.guardAttemptEnds]
  refine ⟨fun hok => ?_, fun hfails => ?_⟩
  · rw [if_pos hok]
    exact State.begin_goesOn hu t _ _
  · rw [if_neg hfails]
    exact State.guardFails_completes hu hd ho t.work.fuse

/-- Cell A blows, or cell B is tried if it has not failed (R144). -/
theorem State.guardFixEnds_first (hu : ArraysLeft s u) (hd : s.dev = .running) (ho : t.owner = .request i r) (ok : Bool) :
    (ok = true → Completes s (u.guardFixEnds t false ok).settle i r .ok [0x01]
      { t.work with fuse := { t.work.fuse with guardA := .blown } } t.events t.alarms) ∧
    (¬ ok = true → t.work.fuse.guardB ≠ .failed → GoesOn s (u.guardFixEnds t false ok).settle
      (t.carrying { t.work with fuse := { t.work.fuse with guardA := .failed } } [] 0x04) (.fuseCell .attemptB)
      (.guardAttempt true)) ∧
    (¬ ok = true → t.work.fuse.guardB = .failed → Completes s (u.guardFixEnds t false ok).settle i r .fuseFault []
      { t.work with fuse := { t.work.fuse with guardA := .failed } } t.events (t.alarms ||| 0x04)) := by
  rw [State.guardFixEnds, if_neg (by decide)]
  refine ⟨fun hok => ?_, fun hfails hcell => ?_, fun hfails hcell => ?_⟩
  · rw [if_pos hok]
    exact State.complete_completes hu.leftBy (t := t.setFuse { t.work.fuse with guardA := .blown }) ho hd .ok _
  · rw [if_neg hfails]
    dsimp only
    rw [if_pos (by simp [Task.latch, Task.setFuse, hcell])]
    have hcarry : t.carrying { t.work with fuse := { t.work.fuse with guardA := .failed } } [] 0x04 =
        (t.setFuse { t.work.fuse with guardA := .failed }).latch alarmFuseFault := by
      rw [Task.carrying, List.append_nil]
      rfl
    rw [hcarry]
    exact State.begin_goesOn hu _ _ _
  · rw [if_neg hfails]
    dsimp only
    rw [if_neg (by simp [Task.latch, Task.setFuse, hcell])]
    have hdone := State.complete_completes hu.leftBy
      (t := ((t.setFuse { t.work.fuse with guardA := .failed }).latch alarmFuseFault).latch alarmFuseFault) ho hd .fuseFault []
    have halarms : t.alarms ||| alarmFuseFault ||| alarmFuseFault = t.alarms ||| 0x04 := by
      rw [BitVec.or_assoc]
      rfl
    rw [← halarms]
    exact hdone

/-- Cell B blows, or the guard cannot be fixed (R144). -/
theorem State.guardFixEnds_second (hu : ArraysLeft s u) (hd : s.dev = .running) (ho : t.owner = .request i r) (ok : Bool) :
    (ok = true → Completes s (u.guardFixEnds t true ok).settle i r .ok [0x02]
      { t.work with fuse := { t.work.fuse with guardB := .blown } } t.events t.alarms) ∧
    (¬ ok = true → Completes s (u.guardFixEnds t true ok).settle i r .fuseFault []
      { t.work with fuse := { t.work.fuse with guardB := .failed } } t.events (t.alarms ||| 0x04)) := by
  rw [State.guardFixEnds, if_pos rfl]
  refine ⟨fun hok => ?_, fun hfails => ?_⟩
  · rw [if_pos hok]
    exact State.complete_completes hu.leftBy (t := t.setFuse { t.work.fuse with guardB := .blown }) ho hd .ok _
  · rw [if_neg hfails]
    exact State.guardFails_completes hu hd ho { t.work.fuse with guardB := .failed }

end

/-! ### The ends -/

/-- A cell's program ends (R143, R144, R150, R152). -/
theorem fuseCellEnds {s : State} {task : Machine.Task} {cell : FuseCell} {stage : Stage} (rb : ReadBack)
    (h : Working s task (.fuseCell cell) stage) :
    ∃ u ok, ArraysLeft s u ∧ u.fuses = (if rb = .asIntended then s.fuses.afterCell cell .asIntended else s.fuses) ∧
      (ok = true ↔ u.fuses.cell cell = true) ∧ u.flash = s.flash ∧ u.catSegs = s.catSegs ∧
      exec (.fuseOperationComplete rb) s = .next (u.stageEnds ⟨task, .fuseCell cell, stage⟩ ok false).settle :=
  ⟨s.land (.fuseCell cell) rb false, _, s.land_arraysLeft _ _ _, s.fuses.afterCell_eq cell rb, Iff.rfl, rfl, rfl,
    h.exec_fuseEnd rfl rb⟩

/-- An object's program ends: of its contents nothing that did not verify is a good bank (R145, R150, log 36). -/
theorem fuseBytesEnds {s : State} {task : Machine.Task} {ar : FuseArea} {bytes : List Byte} {stage : Stage} (rb : ReadBack)
    (h : Working s task (.fuseBytes ar bytes) stage) :
    ∃ u ok, ArraysLeft s u ∧ u.flash = s.flash ∧ u.catSegs = s.catSegs ∧ (∀ x, u.fuses.cell x = s.fuses.cell x) ∧
      (rb = .asIntended → u.fuses.area ar = some bytes) ∧ (∀ x, x ≠ ar → u.fuses.area x = s.fuses.area x) ∧
      (ok = true ↔ u.fuses.area ar = some bytes) ∧
      (¬ u.fuses.area ar = some bytes → ar ≠ .label → goodBank (u.fuses.area ar) = none) ∧
      exec (.fuseOperationComplete rb) s = .next (u.stageEnds ⟨task, .fuseBytes ar bytes, stage⟩ ok false).settle := by
  obtain ⟨-, hcells, hothers⟩ := s.land_onlyTarget (.fuseBytes ar bytes) rb false
  refine ⟨s.land (.fuseBytes ar bytes) rb false, _, s.land_arraysLeft _ _ _, rfl, rfl, hcells, ?_, hothers, beq_iff_eq, ?_,
    h.exec_fuseEnd rfl rb⟩
  · rintro rfl
    cases ar
    case label => rfl
    all_goals exact bankAfter_asIntended _ _
  · intro hbad hbank
    cases ar
    case label => exact absurd rfl hbank
    all_goals exact bankAfter_bad _ _ rb hbad

/-- Settles O58: each stage's end, from what its program left and whether it verified. -/
theorem fuseOperationsCompleteCommit : Obligations.FuseOperationsCompleteCommit := by
  refine ⟨fun s i r w second hdev => ⟨fun hjob => ?marker, fun hjob => ?contents⟩,
    fun s i r task cell stage rb hwork howner => ?cell, fun s i r task ar bytes stage rb hwork howner => ?bytes⟩
  case marker =>
    have hcell : (s.fuses.afterCell (if second then .markerB else .markerA) .asIntended).cell
        (if second then .markerB else .markerA) = true := by cases second <;> simp [FuseStore.afterCell, FuseStore.cell]
    have hends := Working.exec_fuseEnd ⟨hdev, hjob⟩ rfl .asIntended
    have hverified : (s.land (.fuseCell (if second then .markerB else .markerA)) .asIntended false).verified
        (.fuseCell (if second then .markerB else .markerA)) .asIntended = true := hcell
    rw [hverified] at hends
    exact ⟨_, hends, rfl, hcell, rfl, rfl, fun _ => rfl⟩
  case contents =>
    obtain ⟨u, ok, hu, hflash, hsegs, -, hread, -, hok, -, hends⟩ := fuseBytesEnds .asIntended ⟨hdev, hjob⟩
    have harea := hread rfl
    rw [hok.mpr harea] at hends
    obtain ⟨hcompletes, -⟩ := State.bankContentsEnds_next hu hdev (t := ⟨.request i r, w, [], 0⟩) rfl second true
    obtain ⟨hcommits, hcontexts, -, -, -⟩ := hcompletes rfl
    obtain ⟨hflash', hsegs', hfuses'⟩ := State.stageEnds_arrays u ⟨⟨.request i r, w, [], 0⟩,
      .fuseBytes (if second then .bankB else .bankA) (bankBytes w.profiles), .bankContents second⟩ true false
    refine ⟨_, hends, ?_, hcontexts, congrArg State.committed hcommits, congrArg State.job hcommits, hsegs'.trans hsegs,
      (congrArg State.tick hcommits).trans rfl, (congrArg State.txn hcommits).trans rfl,
      fun a => congrArg (readByte · a) (hflash'.trans hflash)⟩
    rw [hfuses']
    cases second <;> exact harea
  case cell =>
    obtain ⟨u, ok, hu, hfuses, hok, hflash, hsegs, hends⟩ := fuseCellEnds rb hwork
    obtain ⟨hflash', hsegs', hfuses'⟩ := State.stageEnds_arrays u ⟨task, .fuseCell cell, stage⟩ ok false
    refine ⟨_, hends, ⟨hsegs'.trans hsegs, fun a => congrArg (readByte · a) (hflash'.trans hflash)⟩, hfuses'.trans hfuses, ?_⟩
    dsimp only
    rw [hfuses', ← hok]
    refine ⟨?_, ?_, ?_, ?_, ?_⟩
    · rintro second rfl
      cases ok
      · exact ⟨fun h => absurd h (by decide), fun _ => State.bankMarkerEnds_failed hu hwork.1 howner second⟩
      · exact ⟨fun _ => State.bankMarkerEnds_verified hu second, fun h => absurd rfl h⟩
    · rintro bytes rfl
      exact State.labelMarkerEnds_next hu hwork.1 howner bytes ok
    · rintro second rfl
      exact State.guardAttemptEnds_next hu hwork.1 howner second ok
    · rintro rfl
      exact State.guardFixEnds_first hu hwork.1 howner ok
    · rintro rfl
      exact State.guardFixEnds_second hu hwork.1 howner ok
  case bytes =>
    obtain ⟨u, ok, hu, hflash, hsegs, hcells, hread, hothers, hok, hbad, hends⟩ := fuseBytesEnds rb hwork
    obtain ⟨hflash', hsegs', hfuses'⟩ := State.stageEnds_arrays u ⟨task, .fuseBytes ar bytes, stage⟩ ok false
    refine ⟨_, hends, ⟨hsegs'.trans hsegs, fun a => congrArg (readByte · a) (hflash'.trans hflash)⟩, ?_⟩
    dsimp only
    rw [hfuses', ← hok]
    refine ⟨hcells, fun h => hok.mpr (hread h), hothers, fun h => hbad (fun h' => h (hok.mpr h')), ?_, ?_⟩
    · rintro second rfl
      exact State.bankContentsEnds_next hu hwork.1 howner second ok
    · rintro label rfl
      obtain ⟨hgood, hfails⟩ := State.labelContentsEnds_next hu hwork.1 howner label ok
      refine ⟨hgood, fun h => ⟨u.fuses.labelRead, fun bs hbs => ?_, hfails h⟩⟩
      rw [FuseStore.labelRead, hbs]

end Sys2Proof.Machine
end

section
/-! Requests whose work behind step 6 begins an operation or an entry at once: APPEND and the structural requests. -/

namespace Sys2Proof.Machine

/-- A request that reaches step 6 with nothing to refresh, at its work: what that work does is what becomes of the request
(R37, R39). -/
theorem ReachesStepSix.work {s : State} {tag : Byte} {env : Env} {i : Instr} {k : Kind} {ps : List Byte} {armed : Bool}
    (h : ReachesStepSix s tag env i k ps armed) (hacc : Accepts s tag) (hidle : EngineIdle s) (hw : Writable s.committed) :
    ∃ (t P : State) (o : Owner) (r : Request), exec i s = .next t ∧ P.stamp = ⟨s.tick, s.timeUnset⟩ ∧
      P.dev = .running ∧ r.kind = k ∧ r.params = ps ∧
      (∀ op stage, P.startWork ⟨o, s.committed, [], 0⟩ r = P.begin ⟨o, s.committed, [], 0⟩ op stage →
        Started s t k tag ps armed op stage) ∧
      (∀ e after, P.startWork ⟨o, s.committed, [], 0⟩ r = P.writeEntry ⟨o, s.committed, [], 0⟩ e after →
        EntryStarts s t k tag ps armed e after) ∧
      (∀ st p evs, P.startWork ⟨o, s.committed, [], 0⟩ r = P.complete ⟨o, s.committed, evs, 0⟩ st p →
        CompletedAtOnce s t k tag ps armed st p s.committed evs) := by
  obtain ⟨hexec, harm, hlen, hmedia, hpasses⟩ := h.passes
  obtain ⟨j, hj⟩ : ∃ j, LowestFree s j := by
    obtain ⟨j, hj, -⟩ := hacc.doMedia_eq hidle k ps env hmedia hlen
    exact ⟨j, hj⟩
  obtain ⟨-, hstamp, -⟩ := hacc.starting_fields env ps hmedia hj
  have hdev : (s.starting env j k tag ps).dev = .running := by
    rw [hacc.starting_eq env ps hmedia hj]
    exact hacc.2.1
  have hrequest : s.newRequest k tag ps = ⟨tag, k, ps, armed, s.nextAcceptance⟩ := by rw [State.newRequest, harm]
  have hwork : (s.starting env j k tag ps).startKind ⟨.request j (s.newRequest k tag ps), s.committed, [], 0⟩
      (s.newRequest k tag ps) env =
      (s.starting env j k tag ps).startWork ⟨.request j (s.newRequest k tag ps), s.committed, [], 0⟩
        (s.newRequest k tag ps) := by
    rw [hrequest, hpasses _ _ _ rfl rfl, State.stepsFiveSix_of_writable _ _ _ _ hw]
  refine ⟨(s.doMedia k tag ps env).settle, s.starting env j k tag ps, .request j (s.newRequest k tag ps),
    s.newRequest k tag ps, hexec s, hstamp, hdev, rfl, rfl, fun op stage hdo => ?_, fun e after hdo => ?_,
    fun st p evs hdo => ?_⟩
  · refine hacc.starts hidle hmedia hlen harm fun i hi => ?_
    obtain rfl := hj.unique hi
    exact hwork.trans hdo
  · refine hacc.startsEntry hidle hmedia hlen harm fun i hi => ?_
    obtain rfl := hj.unique hi
    exact hwork.trans hdo
  · refine hacc.completes hidle hmedia hlen harm rfl fun i hi => ?_
    obtain rfl := hj.unique hi
    exact hwork.trans hdo

/-! ### APPEND -/

theorem Tables.newestOpen_eq_some {tb : Tables} {st : Machine.Stream} {l : SegLink} (hopen : st.state = .opened)
    (hnewest : st.segs.getLast? = some l) (hsuspect : (tb.seg l.seg).suspect = false) (hclosed : st.closed = false)
    (hroom : st.writePos < slotsPerSegment st.slotSize) : tb.newestOpen st = some l := by
  rw [Tables.newestOpen, Stream.newest, hnewest]
  exact if_pos ⟨hopen, hsuspect, hclosed, hroom⟩

theorem Tables.newestOpen_eq_none {tb : Tables} {st : Machine.Stream}
    (h : ∀ l : SegLink, st.segs.getLast? = some l →
      (tb.seg l.seg).suspect = true ∨ st.closed = true ∨ slotsPerSegment st.slotSize ≤ st.writePos) :
    tb.newestOpen st = none := by
  rw [Tables.newestOpen, Stream.newest]
  cases hlast : st.segs.getLast? with
  | none => rfl
  | some l =>
    refine if_neg ?_
    rintro ⟨-, hsuspect, hclosed, hroom⟩
    rcases h l hlast with hs | hc | hf
    · rw [hsuspect] at hs; cases hs
    · rw [hclosed] at hc; cases hc
    · omega

theorem parseAppend_eq {id marker : Byte} {payload : List Byte} (hid : id.toNat < 16) (hmarker : marker.toNat ≤ 1)
    (hlen : payload.length ≤ 502) :
    parseAppend (id :: marker :: payload) = some (id.toNat, decide (marker = 0x01), payload) := by
  have hflag : marker = 0x00 ∨ marker = 0x01 := by
    have h : marker.toNat = 0 ∨ marker.toNat = 1 := by omega
    exact h.imp (fun h => BitVec.eq_of_toNat_eq h) (fun h => BitVec.eq_of_toNat_eq h)
  rcases hflag with rfl | rfl <;> simp [parseAppend, parseId, streamCount, hid, parseFlag, largestPayload, hlen]

/-- The three ways of an APPEND's work (R72, R93, R94). -/
theorem State.workAppend_cases {s : State} {t : Machine.Task} {id : Nat} {marker : Bool} {payload : List Byte} {a : AppendData}
    (ha : captureAppend t.work s.stamp id marker payload = a) :
    ((t.work.tables.stream a.id).next = lastNext → s.workAppend t id marker payload = s.complete t .seqExhausted []) ∧
    ∀ _ : (t.work.tables.stream a.id).next ≠ lastNext,
      (∀ l, t.work.tables.newestOpen (t.work.tables.stream a.id) = some l →
        s.workAppend t id marker payload = s.startBody t a l.seg) ∧
      (t.work.tables.newestOpen (t.work.tables.stream a.id) = none →
        s.workAppend t id marker payload = s.newSegment t a) := by
  rw [State.workAppend, ha]
  refine ⟨fun hlast => if_pos hlast, fun hnext => ⟨fun l hopen => ?_, fun hfull => ?_⟩⟩ <;>
    refine (if_neg hnext).trans ?_ <;> dsimp only [Task.streamOf]
  · rw [hopen]
  · rw [hfull]

/-- Settles O52: the captured record goes to the newest segment if that is open, and otherwise asks for another. -/
theorem appendBeginsBodyProgram : Obligations.AppendBeginsBodyProgram := by
  intro s tag id marker payload env hacc hidle hw hid hmarker
  dsimp only
  intro hopen hfits hlen hprofile
  obtain ⟨t, P, o, r, hexec, hstamp, -, hkind, hparams, hstarts, hentry, hcompletes⟩ :=
    (ReachesStepSix.append (env := env) (tag := tag) id marker payload hid hmarker hopen hlen hfits).work hacc hidle hw
  refine ⟨t, hexec, ?_⟩
  have hcapture := captureAppend_eq s.committed ⟨s.tick, s.timeUnset⟩ id marker payload hprofile
  dsimp only at hcapture
  have hdo : P.startWork ⟨o, s.committed, [], 0⟩ r =
      P.workAppend ⟨o, s.committed, [], 0⟩ id.toNat (decide (marker = 0x01)) payload := by
    simp only [State.startWork, hkind, hparams, parseAppend_eq hid hmarker hlen]
  rw [← hstamp] at hcapture
  obtain ⟨hexhausted, hgoes⟩ := State.workAppend_cases (t := ⟨o, s.committed, [], 0⟩) hcapture
  refine ⟨fun hlast => ?last, fun hnext => ?_⟩
  case last => exact hcompletes .seqExhausted [] [] (hdo.trans (hexhausted hlast))
  obtain ⟨hbody, hsegment⟩ := hgoes hnext
  refine ⟨fun l hnewest hsuspect hclosed hroom => ?body, fun hfull => ?segment⟩
  case body =>
    have hbegins := hdo.trans (hbody l (Tables.newestOpen_eq_some hopen hnewest hsuspect hclosed hroom))
    rw [hstamp] at hbegins
    exact hstarts _ _ hbegins
  case segment =>
    have hasks := hdo.trans (hsegment (Tables.newestOpen_eq_none hfull))
    rw [← hstamp]
    exact (State.newSegment_needs P ⟨o, s.committed, [], 0⟩ _).mono
      (fun op stage h => hstarts op stage (hasks.trans h)) (fun e after h => hentry e after (hasks.trans h))
      fun st evs h => hcompletes st _ evs (hasks.trans h)

end Sys2Proof.Machine
end

section
/-! The structural requests begin their one entry. -/

namespace Sys2Proof.Machine

/-! ### The stream a CREATE_STREAM describes, and the segments a TRIM releases -/

/-- The fields of a CREATE_STREAM, read into the stream it creates (R77, R78). -/
theorem parseCreate_eq {id sc ret qh ql opt : Byte} {start : Word} {label : List Byte} (hid : id.toNat < 16)
    (hlabel : label.length = 0 ∨ label.length = 8) (hsc : sc.toNat ≤ 3) (hret : ret.toNat ≤ 1) (hopt : opt.toNat ≤ 3)
    (hquota : (qh ++ ql).toNat ≤ 1020) (hwrap : ret = 0x00 → 2 ≤ (qh ++ ql).toNat) (hstart : 1 ≤ start.toNat)
    (hlast : start.toNat ≤ 0xFFFF0000) :
    parseCreate ([id, sc, ret, qh, ql, opt] ++ be32 start.toNat ++ label) =
      some (id.toNat, newStream (64 * 2 ^ sc.toNat) (if ret = 0x00 then .wrap else .halt) (qh ++ ql).toNat opt start.toNat
        (if label = [] then none else some label)) := by
  have hslot : slotSizeOf sc = some (64 * 2 ^ sc.toNat) := by
    have hcases : sc = 0 ∨ sc = 1 ∨ sc = 2 ∨ sc = 3 := by bv_omega
    rcases hcases with rfl | rfl | rfl | rfl <;> decide
  have hretention : retentionOf ret = some (if ret = 0x00 then .wrap else .halt) := by
    have hcases : ret = 0 ∨ ret = 1 := by bv_omega
    rcases hcases with rfl | rfl <;> decide
  have hok : quotaOk (if ret = 0x00 then .wrap else .halt) (qh ++ ql).toNat = true := by
    by_cases hr : ret = 0x00
    · simp [hr, quotaOk, hquota, hwrap hr]
    · simp [show ¬ ret = 0#8 from hr, quotaOk, hquota]
  have hfields : ∀ lab, parseCreateFields id sc ret qh ql opt start.toNat lab = some (id.toNat,
      newStream (64 * 2 ^ sc.toNat) (if ret = 0x00 then .wrap else .halt) (qh ++ ql).toNat opt start.toNat lab) := by
    intro lab
    have hopt' : opt.toNat < 4 := by omega
    simp only [parseCreateFields, parseId, streamCount, hid, if_true, hslot, hretention, ofBe2, hok]
    simp [hopt', hstart, hlast, largestStart]
  have hbytes : ofBe [byteOf (start.toNat / 16777216), byteOf (start.toNat / 65536), byteOf (start.toNat / 256),
      byteOf start.toNat] = start.toNat := ofBe_be32 _ start.isLt
  rcases hlabel with h | h
  · obtain rfl := List.length_eq_zero_iff.mp h
    simp only [be32, List.cons_append, List.nil_append, parseCreate, List.length_nil, if_true, hbytes, hfields]
  · have hne : label ≠ [] := by rintro rfl; cases h
    simp only [be32, List.cons_append, List.nil_append, parseCreate, h, hbytes, hfields, hne, if_false]
    rfl

/-- A TRIM releases the head of the list: a segment with a next one goes when that next one starts at or below the new
oldest, and the last only of a SEALED stream that is trimmed to its end (R111). -/
theorem releasedBy_spec (k next : Nat) (closed : Bool) : ∀ segs : List SegLink,
    segs.Pairwise (fun l m => l.firstSeq ≤ m.firstSeq) → (∀ l ∈ segs, l.firstSeq ≤ next) →
    ∃ n ≤ segs.length, releasedBy k next closed segs = (segs.take n).map SegLink.seg ∧
      (∀ (j : Nat) (m : SegLink), segs[j + 1]? = some m → (j < n ↔ m.firstSeq ≤ k)) ∧
      (segs ≠ [] → (n = segs.length ↔ closed = true ∧ next ≤ k))
  | [], _, _ => ⟨0, Nat.le_refl 0, rfl, by simp, by simp⟩
  | [l], _, _ => by
    by_cases h : closed = true ∧ next ≤ k
    · exact ⟨1, Nat.le_refl 1, by simp [releasedBy, h], by simp, by simp [h]⟩
    · exact ⟨0, Nat.zero_le 1, by simpa [releasedBy] using h, by simp, by simpa using h⟩
  | l :: m :: rest, hsorted, hnext => by
    by_cases hm : m.firstSeq ≤ k
    case pos =>
      obtain ⟨n, hn, htake, hinner, hlast⟩ := releasedBy_spec k next closed (m :: rest) hsorted.of_cons
        fun x hx => hnext x (List.mem_cons_of_mem l hx)
      refine ⟨n + 1, Nat.succ_le_succ hn, by simp [releasedBy, hm, htake], fun j x hx => ?_, fun _ => ?_⟩
      · cases j with
        | zero =>
          obtain rfl : m = x := by simpa using hx
          exact ⟨fun _ => hm, fun _ => Nat.succ_pos n⟩
        | succ j => exact Nat.succ_lt_succ_iff.trans (hinner j x hx)
      · exact Nat.succ_inj.trans (hlast (List.cons_ne_nil m rest))
    case neg =>
      have hkm : k < m.firstSeq := Nat.lt_of_not_le hm
      have hmn : m.firstSeq ≤ next := hnext m (by simp)
      have hrest : ∀ x ∈ rest, m.firstSeq ≤ x.firstSeq := (List.pairwise_cons.mp hsorted.of_cons).1
      refine ⟨0, Nat.zero_le _, by simp [releasedBy, hm], fun j x hx => ?_, fun _ => ?_⟩
      · have hx' : x = m ∨ x ∈ rest := by simpa using List.mem_of_getElem? (by simpa using hx : (m :: rest)[j]? = some x)
        have hmx : m.firstSeq ≤ x.firstSeq := hx'.elim (fun h => h ▸ Nat.le_refl _) (hrest x)
        omega
      · simp only [List.length_cons]; omega

/-! ### The work of each kind -/

section Work

variable {s t : State} {tag : Byte} {env : Env} {c : Instr} {k : Kind} {ps : List Byte} {armed : Bool}

/-- A request at step 6 whose work is one entry (R60, R61, R63). -/
theorem ReachesStepSix.startsEntry {e : Entry} {after : After} (h : ReachesStepSix s tag env c k ps armed)
    (hacc : Accepts s tag) (hidle : EngineIdle s) (hw : Writable s.committed)
    (hdo : ∀ (P : State) (o : Owner) (r : Request), P.dev = .running → r.kind = k → r.params = ps →
      P.startWork ⟨o, s.committed, [], 0⟩ r = P.writeEntry ⟨o, s.committed, [], 0⟩ e after) :
    ∃ t, exec c s = .next t ∧ EntryStarts s t k tag ps armed e after := by
  obtain ⟨t, P, o, r, hexec, -, hdev, hkind, hparams, -, hentry, -⟩ := h.work hacc hidle hw
  exact ⟨t, hexec, hentry e after (hdo P o r hdev hkind hparams)⟩

end Work

theorem Settings.get_eq_getD (g : Settings) (code : Nat) : g.get code =
    if code = 0 then 0 else [g.guardMode, g.sensorSource, g.sensorAddress, g.sensorPointer, g.sensorFormat, g.refreshInterval,
      g.tickPeriod, g.alertMask, g.poolLowThreshold].getD (code - 1) 0 := by
  rcases code with _ | _ | _ | _ | _ | _ | _ | _ | _ | _ | n <;> rfl

theorem be16_bytes (v : Half) : (byteOf (v.toNat / 256) ++ byteOf v.toNat : Half) = v := by
  apply BitVec.eq_of_toNat_eq
  have h := ofBe_be16 v.toNat v.isLt
  rw [← ofBe2]
  exact h

/-- A setting by SET_OPTION, the guard having no say in it (R155, R156). -/
theorem structuralOption {s : State} {tag : Byte} {env : Env} (hacc : Accepts s tag) (hidle : EngineIdle s)
    (hw : Writable s.committed) {code v : Half} (hallowed : SettingAllowed code.toNat v.toNat)
    (hguard : s.committed.guardEngaged env.guardHigh = false ∨
      code ≠ 7 ∧ (code = 1 → v = 1 ∧ s.committed.fuse.guardA ≠ .blown ∧ s.committed.fuse.guardB ≠ .blown)) :
    ∃ t, exec (.setOption tag (byteOf code.toNat :: be16 v.toNat) env) s = .next t ∧
      EntryStarts s t .setOption tag (byteOf code.toNat :: be16 v.toNat) false (.setting code.toNat v)
        (.option code.toNat ([byteOf code.toNat] ++ be16 (s.committed.tables.settings.get code.toNat).toNat ++
          be16 v.toNat)) := by
  have hsmall : code.toNat < 256 := by
    rcases hallowed with h | h | h | h | h | h | h | h | h <;> obtain ⟨h, -⟩ := h <;> omega
  have hcode : (byteOf code.toNat).toNat = code.toNat := by rw [byteOf, BitVec.toNat_ofNat]; omega
  have hv := be16_bytes v
  have hstep : ReachesStepSix s tag env (.setOption tag (byteOf code.toNat :: be16 v.toNat) env) .setOption
      (byteOf code.toNat :: be16 v.toNat) false := by
    refine .option (byteOf code.toNat) (byteOf (v.toNat / 256)) (byteOf v.toNat) (by rw [hcode, hv]; exact hallowed) ?_
    intro hengaged
    obtain ⟨h7, h1⟩ := hguard.resolve_left (by rw [hengaged]; exact Bool.noConfusion)
    refine ⟨fun h => h7 (BitVec.eq_of_toNat_eq ?_), fun h => ?_⟩
    · rw [← hcode, h]
      rfl
    · obtain ⟨rfl, hA, hB⟩ := h1 (BitVec.eq_of_toNat_eq (by rw [← hcode, h]; rfl))
      rw [hv]
      exact ⟨rfl, hA, hB⟩
  have hparse : parseSetOption (byteOf code.toNat :: be16 v.toNat) = some (code.toNat, v) := by
    have h := parseSetOption_be16 (code := byteOf code.toNat) (v := v) (by rw [hcode]; exact hallowed)
    rwa [hcode] at h
  refine hstep.startsEntry hacc hidle hw fun P o r _ hkind hparams => ?_
  simp only [State.startWork, hkind, hparams, hparse]
  rfl

/-- TRIM of a stream that has passed its checks: its entry, or nothing to do at or below oldest (R111). -/
theorem trimEnds {s : State} {tag id : Byte} {env : Env} {n : Word} (hacc : Accepts s tag) (hidle : EngineIdle s)
    (hw : Writable s.committed) (hid : id.toNat < 16) (hguard : s.committed.guardEngaged env.guardHigh = false)
    (hstate : (s.committed.tables.stream id.toNat).state ≠ .absent)
    (hhold : (s.committed.tables.stream id.toNat).hold = false)
    (hn : n.toNat ≤ (s.committed.tables.stream id.toNat).next) :
    let st := s.committed.tables.stream id.toNat
    let is := releasedBy n.toNat st.next (st.state == .sealed) st.segs
    ∃ t, exec (.trim tag (id :: be32 n.toNat) env) s = .next t ∧
      (st.oldest < n.toNat → EntryStarts s t .trim tag (id :: be32 n.toNat) false (.trimmed id.toNat n.toNat is)
        (.reply (be32 n.toNat ++ releasedCounts s.committed.tables is))) ∧
      (n.toNat ≤ st.oldest → CompletedAtOnce s t .trim tag (id :: be32 n.toNat) false .ok
        (be32 st.oldest ++ [0x00, 0x00, 0x00, 0x00]) s.committed []) := by
  obtain ⟨t, P, o, r, hexec, -, -, hkind, hparams, -, hentry, hcompletes⟩ :=
    (ReachesStepSix.trim (env := env) (tag := tag) id n hid hstate hn hguard hhold).work hacc hidle hw
  have hdo : P.startWork ⟨o, s.committed, [], 0⟩ r = P.workTrim ⟨o, s.committed, [], 0⟩ id.toNat n.toNat := by
    simp only [State.startWork, hkind, hparams, parseIdNumber_be32 id n hid]
  simp only [State.workTrim, releaseCounts_eq] at hdo
  exact ⟨t, hexec, fun hold => hentry _ _ (hdo.trans (if_neg (Nat.not_le.mpr hold))),
    fun hold => hcompletes _ _ _ (hdo.trans (if_pos hold))⟩

/-- The structural requests in RUNNING. -/
theorem structuralRequests (s : State) (tag id : Byte) (env : Env) (hacc : Accepts s tag) (hidle : EngineIdle s)
    (hw : Writable s.committed) (hid : id.toNat < 16) :
    let c := s.committed
    let st := c.tables.stream id.toNat
    let unguarded := c.guardEngaged env.guardHigh = false
    (∀ (label : List Byte) (start : Word) (sc ret qh ql opt : Byte), (label.length = 0 ∨ label.length = 8) →
      st.state = .absent → sc.toNat ≤ 3 → ret.toNat ≤ 1 → opt.toNat ≤ 3 → (qh ++ ql).toNat ≤ 1020 →
      (ret = 0x00 → 2 ≤ (qh ++ ql).toNat) → 1 ≤ start.toNat → start.toNat ≤ 0xFFFF0000 →
      let ps := [id, sc, ret, qh, ql, opt] ++ be32 start.toNat ++ label
      ∃ t, exec (.createStream tag ps env) s = .next t ∧
        EntryStarts s t .createStream tag ps false
          (.created id.toNat (newStream (64 * 2 ^ sc.toNat) (if ret = 0x00 then .wrap else .halt) (qh ++ ql).toNat opt
            start.toNat (if label = [] then none else some label)))
          (.reply (id :: be32 start.toNat))) ∧
    (s.armLatch = some ⟨.deleteStream, id⟩ → unguarded → st.state ≠ .absent → st.hold = false →
      ∃ t, exec (.deleteStream tag [id] env) s = .next t ∧
        EntryStarts s t .deleteStream tag [id] true (.deleted id.toNat)
          (.reply (releasedCounts c.tables (st.segs.map SegLink.seg)))) ∧
    (st.state = .opened → ∃ t, exec (.sealStream tag [id] env) s = .next t ∧
      EntryStarts s t .sealStream tag [id] false (.sealed id.toNat st.next) (.reply (be32 st.next))) ∧
    (st.state ≠ .absent → st.hold = false → ∃ t, exec (.setHold tag [id] env) s = .next t ∧
      EntryStarts s t .setHold tag [id] false (.holdSet id.toNat) (.reply [id, 0x00])) ∧
    (unguarded → st.state ≠ .absent → st.hold = true → ∃ t, exec (.clearHold tag [id] env) s = .next t ∧
      EntryStarts s t .clearHold tag [id] false (.holdCleared id.toNat) (.reply [id, 0x01])) ∧
    (s.armLatch = some ⟨.format, 0x00⟩ → unguarded → (∀ x ∈ c.tables.streams, x.hold = false) →
      ∃ t, exec (.format tag [] env) s = .next t ∧
        EntryStarts s t .format tag [] true .formatted
          (.formatReply ([0x00, byteOf c.tables.liveStreams] ++ releasedCounts c.tables c.tables.linkedSegs))) := by
  have hparse := parseStreamId_of_lt hid
  refine ⟨fun label start sc ret qh ql opt hlabel hstate hsc hret hopt hquota hwrap hstart hlast => ?create,
    fun harm hg hstate hhold => ?delete, fun hopen => ?sealStream, fun hstate hhold => ?setHold,
    fun hg hstate hhold => ?clearHold, fun harm hg hhold => ?format⟩
  case create =>
    refine (ReachesStepSix.create id sc ret qh ql opt start label hid hlabel hstate hsc hret hopt hquota hwrap hstart
      hlast).startsEntry hacc hidle hw fun P o r _ hkind hparams => ?_
    simp only [State.startWork, hkind, hparams,
      parseCreate_eq hid hlabel hsc hret hopt hquota hwrap hstart hlast, State.workCreate, byteOf_toNat]
    rfl
  case delete =>
    refine (ReachesStepSix.delete id hid harm hg hstate hhold).startsEntry hacc hidle hw
      fun P o r _ hkind hparams => ?_
    simp only [State.startWork, hkind, hparams, hparse, State.workDelete, releaseCounts_eq]
  case sealStream =>
    refine (ReachesStepSix.sealStream id hid hopen).startsEntry hacc hidle hw fun P o r _ hkind hparams => ?_
    simp only [State.startWork, hkind, hparams, hparse, State.workSeal]
  case setHold =>
    refine (ReachesStepSix.setHold id hid hstate hhold).startsEntry hacc hidle hw fun P o r _ hkind hparams => ?_
    simp only [State.startWork, hkind, hparams, hparse, State.workSetHold, byteOf_toNat]
  case clearHold =>
    refine (ReachesStepSix.clearHold id hid hg hstate hhold).startsEntry hacc hidle hw fun P o r _ hkind hparams => ?_
    simp only [State.startWork, hkind, hparams, hparse, State.workClearHold, byteOf_toNat]
  case format =>
    refine (ReachesStepSix.format harm hg hhold).startsEntry hacc hidle hw fun P o r hdev hkind hparams => ?_
    simp only [State.startWork, hkind]
    rw [if_neg (by rw [hdev]; exact nofun), State.workFormat, releaseCounts_eq]

end Sys2Proof.Machine
end

section
/-! FORMAT in FAULTED (R85). -/

namespace Sys2Proof.Machine

/-! ### Its start -/

/-- A FORMAT in FAULTED whose work ends at once with nothing built leaves FAULTED standing (R40, R84; log 30). -/
theorem AcceptsFaulted.refuses {s : State} {tag : Byte} (h : AcceptsFaulted s tag) (he : EngineIdle s) {ps : List Byte}
    {env : Env} (hl : ps.length ≤ maxParams) {st : Status} {w : Committed} {evs : List Raised} {armed : Bool}
    (ha : armMatches s.armLatch .format ps = armed) (hcat : w.cat.active = none)
    (hperiod : w.tables.settings.tickPeriod = s.committed.tables.settings.tickPeriod)
    (hs : ∀ i, LowestFree s i →
      (s.starting env i .format tag ps).startKind
          ⟨.request i (s.newRequest .format tag ps), s.committed, [], 0⟩ (s.newRequest .format tag ps) env =
        (s.starting env i .format tag ps).complete ⟨.request i (s.newRequest .format tag ps), w, evs, 0⟩ st []) :
    RefusedFaulted s (s.doMedia .format tag ps env).settle tag ps armed st w evs := by
  subst ha
  have htakes := h.takes he
  obtain ⟨i, hi, -, heq⟩ := htakes.doMedia_eq ps env hl
  replace heq := heq.trans (hs i hi)
  have hstarting := State.starting_eq h.1 htakes.link.2.1 env tag ps (k := .format) rfl hi
  have hdev : (s.starting env i .format tag ps).dev = .faulted := by rw [hstarting]; exact h.2.1
  have hjob : s.job = none := he.1
  generalize s.starting env i .format tag ps = P at heq hstarting hdev
  replace heq : s.doMedia .format tag ps env = (P.commit ⟨.request i (s.newRequest .format tag ps), w, evs, 0⟩).finish i
    (s.newRequest .format tag ps) st [] := heq
  rw [State.commit_faulted _ _ hdev hcat] at heq
  obtain ⟨u, hu⟩ : ∃ u, u = ({ P with
      committed := w
      job := none
      alarms := P.alarms ||| 0
      tickPeriod :=
        if w.tables.settings.tickPeriod = P.committed.tables.settings.tickPeriod then P.tickPeriod
        else w.tables.settings.tickPeriod.toNat
      reconsider := P.reconsider || (P.reclaimPaused &&
        (w.activeProfile != P.committed.activeProfile || (w.permits && !P.committed.permits))) } : State) := ⟨_, rfl⟩
  dsimp only at heq
  rw [← hu] at heq
  obtain ⟨q1, q2, q3⟩ := State.recordAll_congr evs (s := u) (u := { s with committed := w }) (by rw [hu, hstarting])
    (by rw [hu, hstarting]) (by rw [hu, hstarting])
  have hframe := State.recordAll_frame evs u
  have hframe' := State.recordAll_frame evs { s with committed := w }
  rw [q1, q2, q3] at hframe
  generalize u.recordAll evs = x at heq hframe
  unfold RefusedFaulted
  generalize State.recordAll { s with committed := w } evs = y at hframe hframe' ⊢
  rw [hframe, hu, hstarting] at heq
  rw [heq]
  refine ⟨⟨⟨rfl, rfl, rfl, rfl⟩, rfl, rfl, rfl, i, hi, ?_⟩, ?_, fun _ => rfl⟩
  · simp [State.settle, State.finish, State.newRequest]
  · rw [hframe']
    simp [State.settle, State.finish, State.requestOf, hperiod, hjob]

/-- A FORMAT in FAULTED behind its checks begins with the erase of catalogue segment 0 (R85). -/
theorem State.startWork_formatFaulted {P : State} {t : Machine.Task} {r : Request} (hdev : P.dev = .faulted)
    (hk : r.kind = .format) : P.startWork t r =
      P.begin t (.catErase 0 (t.work.profile t.work.activeProfile).eraseClass) (.format [0, 1, 2, 3] [] .erasing) := by
  rw [State.startWork, hk]
  exact if_pos hdev

/-- A request that reaches step 6 with nothing to refresh: its work, or TEMP_INHIBIT (R39, R125). -/
theorem State.stepsFiveSix_current {P : State} {t : Machine.Task} {r : Request} (env : Env) (hro : t.work.cat.readOnly = false)
    (hdue : t.work.due = false) : P.stepsFiveSix t r env = P.afterRefresh t r := by
  rw [State.stepsFiveSix, hro, hdue]
  rfl

/-- FORMAT in FAULTED from its acceptance to its first operation (R39, R84, R85, R125). -/
theorem formatFaultedStarts (s : State) (tag : Byte) (env : Env) (hacc : AcceptsFaulted s tag) (hidle : EngineIdle s)
    (hro : s.committed.cat.readOnly = false) (hhold : ∀ x ∈ s.committed.tables.streams, x.hold = false) :
    let old := s.committed
    let v := dieValue env.die
    let c := old.sampled v .internal
    let evs := changeOf old ⟨s.tick, s.timeUnset⟩ c.activeProfile v
    let erases := fun (t : State) (w : Committed) (events : List Raised) =>
      StartedWith s t .format tag [] true w events (.catErase 0 (w.profile w.activeProfile).eraseClass)
        (.format [0, 1, 2, 3] [] .erasing)
    (∀ (ps : List Byte) (armed : Bool), ps ≠ [] → ps.length ≤ 520 → MarkedArmed s .format ps armed →
      ∃ t, exec (.format tag ps env) s = .next t ∧ RefusedFaulted s t tag ps armed .badParam old []) ∧
    ∃ t, exec (.format tag [] env) s = .next t ∧
      ((∀ x, s.armLatch ≠ some ⟨.format, x⟩) → RefusedFaulted s t tag [] false .notArmed old []) ∧
      (s.armLatch = some ⟨.format, 0x00⟩ → old.guardEngaged env.guardHigh = true →
        RefusedFaulted s t tag [] true .guarded old []) ∧
      (s.armLatch = some ⟨.format, 0x00⟩ → old.guardEngaged env.guardHigh = false →
        (old.due = false → old.permits = false → RefusedFaulted s t tag [] true .tempInhibit old []) ∧
        (old.due = false → old.permits = true → erases t old []) ∧
        (old.due = true → old.activeSource = .internal →
          (c.permits = false → RefusedFaulted s t tag [] true .tempInhibit c evs) ∧
          (c.permits = true → erases t c evs))) := by
  dsimp only
  have hcat : s.committed.cat.active = none := hacc.2.2.2.2.2.1
  refine ⟨fun ps armed hne hlen harmed => ?malformed, _, rfl, fun hlatch => ?notArmed, fun hlatch hguard => ?guarded,
    fun hlatch hguard => ?passes⟩
  case malformed =>
    refine ⟨_, rfl, hacc.refuses hidle hlen (armed := armed) ?_ hcat rfl fun i _ =>
      State.startKind_malformed _ _ rfl env hne⟩
    rw [armMatches_eq_decide, Bool.eq_iff_iff, decide_eq_true_eq]
    exact harmed.symm
  case notArmed =>
    have harm : armMatches s.armLatch .format [] = false := armMatches_other hlatch []
    refine hacc.refuses hidle (Nat.zero_le _) harm hcat rfl fun i _ => ?_
    rw [State.startKind_format _ _ env rfl rfl, show (s.newRequest .format tag []).armed = false from harm]
    rfl
  case guarded =>
    have harm : armMatches s.armLatch .format [] = true := armMatches_pair hlatch rfl fun h => absurd h (by decide)
    refine hacc.refuses hidle (Nat.zero_le _) harm hcat rfl fun i _ => ?_
    rw [State.startKind_format _ _ env rfl rfl, show (s.newRequest .format tag []).armed = true from harm]
    exact if_pos hguard
  case passes =>
    have harm : armMatches s.armLatch .format [] = true := armMatches_pair hlatch rfl fun h => absurd h (by decide)
    have hchecks (P : State) (o : Owner) : P.startKind ⟨o, s.committed, [], 0⟩ (s.newRequest .format tag []) env =
        P.stepsFiveSix ⟨o, s.committed, [], 0⟩ (s.newRequest .format tag []) env := by
      have hfree : ¬ s.committed.tables.streams.any Stream.hold = true := by
        rw [Tables.any_hold_iff]
        rintro ⟨x, hx, hheld⟩
        rw [hhold x hx] at hheld
        cases hheld
      rw [State.startKind_format _ _ env rfl rfl, show (s.newRequest .format tag []).armed = true from harm]
      exact (if_neg (by decide)).trans ((if_neg (show ¬ s.committed.guardEngaged env.guardHigh = true by
        rw [hguard]; exact Bool.noConfusion)).trans (if_neg hfree))
    have hrefused (w : Committed) (evs : List Raised) (hw : w.permits = false) (hwcat : w.cat.active = none)
        (hperiod : w.tables.settings.tickPeriod = s.committed.tables.settings.tickPeriod)
        (hgoes : ∀ i, LowestFree s i →
          (s.starting env i .format tag []).stepsFiveSix ⟨.request i (s.newRequest .format tag []), s.committed, [], 0⟩
            (s.newRequest .format tag []) env = (s.starting env i .format tag []).afterRefresh
              ⟨.request i (s.newRequest .format tag []), w, evs, 0⟩ (s.newRequest .format tag [])) :
        RefusedFaulted s (s.doMedia .format tag [] env).settle tag [] true .tempInhibit w evs :=
      hacc.refuses hidle (Nat.zero_le _) harm hwcat hperiod fun i hi =>
        (hchecks _ _).trans ((hgoes i hi).trans (if_neg (by rw [hw]; exact Bool.noConfusion)))
    have herases (w : Committed) (evs : List Raised) (hw : w.permits = true)
        (hgoes : ∀ i, LowestFree s i →
          (s.starting env i .format tag []).stepsFiveSix ⟨.request i (s.newRequest .format tag []), s.committed, [], 0⟩
            (s.newRequest .format tag []) env = (s.starting env i .format tag []).afterRefresh
              ⟨.request i (s.newRequest .format tag []), w, evs, 0⟩ (s.newRequest .format tag [])) :
        StartedWith s (s.doMedia .format tag [] env).settle .format tag [] true w evs
          (.catErase 0 (w.profile w.activeProfile).eraseClass) (.format [0, 1, 2, 3] [] .erasing) := by
      refine (hacc.takes hidle).startsWith (Nat.zero_le _) harm fun i hi =>
        (hchecks _ _).trans ((hgoes i hi).trans ((if_pos hw).trans (State.startWork_formatFaulted ?_ rfl)))
      rw [State.starting_eq hacc.1 (hacc.takes hidle).link.2.1 env tag [] (k := .format) rfl hi]
      exact hacc.2.1
    refine ⟨fun hdue hpermits => hrefused _ [] hpermits hcat rfl fun i _ => State.stepsFiveSix_current env hro hdue,
      fun hdue hpermits => herases _ [] hpermits fun i _ => State.stepsFiveSix_current env hro hdue,
      fun hdue hsource => ?_⟩
    have hrefreshed (i : Nat) (hi : LowestFree s i) := State.stepsFiveSix_internal (s.starting env i .format tag [])
      ⟨.request i (s.newRequest .format tag []), s.committed, [], 0⟩ (s.newRequest .format tag []) env hro hdue hsource
    have hstamp (i : Nat) (hi : LowestFree s i) : (s.starting env i .format tag []).stamp = ⟨s.tick, s.timeUnset⟩ := by
      rw [State.starting_eq hacc.1 (hacc.takes hidle).link.2.1 env tag [] (k := .format) rfl hi]
      rfl
    exact ⟨fun hpermits => hrefused _ _ hpermits hcat rfl fun i hi => (hrefreshed i hi).trans (by rw [hstamp i hi]; rfl),
      fun hpermits => herases _ _ hpermits fun i hi => (hrefreshed i hi).trans (by rw [hstamp i hi]; rfl)⟩

end Sys2Proof.Machine
end

section
/-! The operations of a FORMAT in FAULTED (R85), and O53. -/

namespace Sys2Proof.Machine

/-! ### A step on a target, for a compaction and for a FORMAT -/

/-- An operation of the array that ends while no reset drains it: what its stage does with what it left (R47). -/
theorem exec_arrayEnd_stage {s : State} {j : Job} (hdev : s.dev ≠ .resetting) (hjob : s.job = some j)
    (harray : j.op.isArray = true) (rb : ReadBack) (trip : Bool) :
    exec (if trip then .arrayWatchdogTrip rb else .arrayOperationComplete rb) s =
      .next ((s.land j.op rb trip).stageEnds j ((s.land j.op rb trip).verified j.op rb && !trip) trip).settle := by
  have hland (b : Bool) : (s.land j.op rb b).dev ≠ .resetting := by rw [State.land_frame]; exact hdev
  have hdo (b : Bool) : s.doArrayEnd rb b =
      (s.land j.op rb b).stageEnds j ((s.land j.op rb b).verified j.op rb && !b) b := by
    rw [State.doArrayEnd, hjob]
    exact (if_pos harray).trans (if_neg (hland b))
  cases trip <;> exact congrArg (fun v => Host.Outcome.next v.settle) (hdo _)

section Target

variable {s t : State} {k : Nat} {op : Operation} {step : TargetStep} {rb : ReadBack} {trip : Bool}

theorem TargetStep.Operates.isArray (h : step.Operates k op) : op.isArray = true := by
  cases step
  case erasing => obtain ⟨_, rfl⟩ := h; rfl
  case page n => obtain ⟨_, _, _, rfl⟩ := h; rfl
  case marking => obtain ⟨_, rfl⟩ := h; rfl

/-- A step on a target leaves all but that catalogue segment (R47). -/
theorem TargetStep.Operates.land_only (h : step.Operates k op) : OnlyCatalogue s (s.land op rb trip) k := by
  have honly := s.land_onlyTarget op rb trip
  cases step
  case erasing => obtain ⟨_, rfl⟩ := h; exact honly
  case page n => obtain ⟨_, _, _, rfl⟩ := h; exact honly
  case marking => obtain ⟨_, rfl⟩ := h; exact honly

theorem TargetStep.Operates.land_frame (h : step.Operates k op) :
    s.land op rb trip = { s with catSegs := (s.land op rb trip).catSegs } := by
  cases step
  case erasing => obtain ⟨_, rfl⟩ := h; rfl
  case page n => obtain ⟨_, _, _, rfl⟩ := h; rfl
  case marking => obtain ⟨_, rfl⟩ := h; rfl

/-- What the engine takes for verified is what `TargetStep.Verified` says (R47, R61). -/
theorem TargetStep.Operates.verified_iff (h : step.Operates k op) (ht : t.catSegs = (s.land op rb trip).catSegs) :
    ((s.land op rb trip).verified op rb && !trip) = true ↔ step.Verified t k rb trip := by
  rw [Bool.and_eq_true, Bool.not_eq_true', and_comm]
  cases step
  case erasing => obtain ⟨_, rfl⟩ := h; exact and_congr_right' (by rw [ht]; rfl)
  case page n => obtain ⟨_, _, _, rfl⟩ := h; exact and_congr_right' decide_eq_true_iff
  case marking => obtain ⟨_, rfl⟩ := h; exact and_congr_right' decide_eq_true_iff

theorem catSegAt_set (segs : List CatSegment) (k : Nat) (c : CatSegment) :
    catSegAt (segs.set k c) k = c ∨ catSegAt (segs.set k c) k = CatSegment.erased := by
  by_cases hk : k < segs.length
  · exact .inl (by simp [catSegAt, hk])
  · exact .inr (by simp [catSegAt, List.getD_eq_getElem?_getD, Nat.le_of_not_lt hk])

theorem CatSegment.valid_of_unmarked {c : CatSegment} (h : c.mark = false) : c.valid = false := by
  rw [CatSegment.valid, h]; rfl

/-- A step that fails leaves no valid image in a target that carried no validity mark, and an erase none where there was
none (R61, R85; log 10). -/
theorem TargetStep.Operates.land_invalid (h : step.Operates k op)
    (hfails : ¬ ((s.land op rb trip).verified op rb && !trip) = true)
    (hbefore : (catSegAt s.catSegs k).mark = false ∨ step = .erasing ∧ (catSegAt s.catSegs k).valid = false) :
    (catSegAt (s.land op rb trip).catSegs k).valid = false := by
  generalize hc : catSegAt s.catSegs k = c at hbefore
  have hset (f : CatSegment → CatSegment) (hf : (f c).valid = false) : (catSegAt (s.setCatSeg k f).catSegs k).valid = false := by
    rcases catSegAt_set s.catSegs k (f c) with h | h
    · rw [State.setCatSeg, hc, h, hf]
    · rw [State.setCatSeg, hc, h]; rfl
  cases step
  case erasing =>
    obtain ⟨_, rfl⟩ := h
    refine hset _ ?_
    cases rb
    case untouched => exact hbefore.elim CatSegment.valid_of_unmarked And.right
    all_goals rfl
  case page n =>
    obtain ⟨_, _, _, rfl⟩ := h
    refine hset _ (CatSegment.valid_of_unmarked ?_)
    rw [CatSegment.afterPage]
    split
    · split
      all_goals exact hbefore.resolve_right (fun h => nomatch h.1)
    · exact hbefore.resolve_right (fun h => nomatch h.1)
  case marking =>
    obtain ⟨_, rfl⟩ := h
    refine hset _ (CatSegment.valid_of_unmarked ?_)
    have hnot : ¬ (rb = .asIntended ∧ trip = false) := by
      rintro ⟨rfl, rfl⟩
      exact hfails rfl
    rw [CatSegment.afterMark, if_neg hnot]
    exact hbefore.resolve_right (fun h => nomatch h.1)

end Target

/-! ### The ends of a FORMAT in FAULTED -/

/-- A request that ends in FAULTED with no catalogue leaves FAULTED standing (R41, R85; log 30). -/
theorem State.complete_completesFaulted {s u : State} (hu : u = { s with catSegs := u.catSegs }) {t : Machine.Task} {i : Nat}
    {r : Request} (ho : t.owner = .request i r) (hdev : s.dev = .faulted) (hcat : t.work.cat.active = none) (st : Status)
    (p : List Byte) : CompletesFaulted s (u.complete t st p).settle i r st p t.work t.events t.alarms := by
  obtain ⟨segs, hsegs⟩ : ∃ segs, u.catSegs = segs := ⟨_, rfl⟩
  rw [hsegs] at hu
  subst hu
  have hend : State.complete { s with catSegs := segs } t st p = (State.commit { s with catSegs := segs } t).finish i r st p := by
    rw [State.complete, ho]
  rw [State.commit_faulted _ t (show { s with catSegs := segs }.dev = .faulted from hdev) hcat] at hend
  dsimp only at hend
  generalize ha : ({ s with
      committed := t.work
      job := none
      alarms := s.alarms ||| t.alarms
      tickPeriod :=
        if t.work.tables.settings.tickPeriod = s.committed.tables.settings.tickPeriod then s.tickPeriod
        else t.work.tables.settings.tickPeriod.toNat
      reconsider := s.reconsider || (s.reclaimPaused && (t.work.activeProfile != s.committed.activeProfile ||
        (t.work.permits && !s.committed.permits)))
      catSegs := segs } : State) = a at hend
  obtain ⟨q1, q2, q3⟩ := State.recordAll_congr t.events (s := a) (u := { s with committed := t.work }) (by rw [← ha])
    (by rw [← ha]) (by rw [← ha])
  have hframe := State.recordAll_frame t.events a
  rw [q1, q2, q3] at hframe
  rw [CompletesFaulted, hend]
  generalize a.recordAll t.events = b at hframe ⊢
  rw [hframe, ← ha]
  rfl

section FormatEnds

variable {s u : State} {t : Machine.Task} {i : Nat} {r : Request} {k : Nat} {ks bad : List Nat}

/-- The mark of a FORMAT in FAULTED completes it in RUNNING, on the tables rebuilt (R62, R85; log 38). -/
theorem State.formatDone_completes (hu : u = { s with catSegs := u.catSegs }) (hdev : s.dev = .faulted)
    (ho : t.owner = .request i r) {tb : Tables} (htb : tb = formatTables s.flash bad) :
    Completes { s with dev := .running, faultedProfile := none } (u.formatDone t k bad).settle i r .ok
      ([0x01, 0x00] ++ be16 tb.dirty.length ++ [0x00, 0x00] ++ [byteOf (tb.usable.countP (· == true))])
      { t.work with tables := tb, cat := ⟨some k, 0, 1, false⟩ }
      (t.events ++ if tb.usable.countP (· == true) = 1 then
        [⟨.catalogueDegraded, ⟨s.tick, s.timeUnset⟩, 0x01, BitVec.ofNat 32 (bad.getLastD 0)⟩] else [])
      (t.alarms ||| if tb.usable.countP (· == true) = 1 then 0x10 else 0) := by
  have hflash : u.flash = s.flash := by rw [hu]
  have hstamp : u.stamp = ⟨s.tick, s.timeUnset⟩ := by rw [hu]; rfl
  have hudev : u.dev = .faulted := by rw [hu]; exact hdev
  have hdone : ∀ t' : Machine.Task, t'.owner = t.owner → t'.work.cat.active = some k → ∀ p,
      Completes { s with dev := .running, faultedProfile := none } (u.complete t' .ok p).settle i r .ok p t'.work t'.events
        t'.alarms := by
    intro t' howner hactive p
    have hcomplete : u.complete t' .ok p = State.complete { u with dev := .running, faultedProfile := none } t' .ok p := by
      rw [State.complete, State.complete, howner, ho, State.commit_leavesFaulted u t' hudev (by rw [hactive]; exact nofun)]
    rw [hcomplete]
    exact State.complete_completes (show LeftBy { s with dev := .running, faultedProfile := none }
      { u with dev := .running, faultedProfile := none } by rw [hu]) (howner.trans ho) rfl .ok p
  rw [State.formatDone, hflash, hstamp, ← htb]
  dsimp only [Tables.usableCount]
  by_cases hone : tb.usable.countP (· == true) = 1
  · simp only [hone, if_true, beq_self_eq_true]
    exact hdone ((((t.setTables tb).setCat ⟨some k, 0, 1, false⟩).raise [raised .catalogueDegraded ⟨s.tick, s.timeUnset⟩ 1
      (bad.getLastD 0)]).latch alarmCatalogueDegraded) rfl rfl _
  · simp only [beq_false_of_ne hone, if_neg hone, List.append_nil]
    rw [show t.alarms ||| (0 : BitVec 6) = t.alarms from BitVec.or_zero]
    exact hdone ((t.setTables tb).setCat ⟨some k, 0, 1, false⟩) rfl rfl _

end FormatEnds

/-- The ends of the operations of a FORMAT in FAULTED (R62, R84, R85, R174). -/
theorem formatFaultedEnds (s : State) (i : Nat) (r : Request) (task : Machine.Task) (op : Operation) (k : Nat)
    (ks bad : List Nat) (step : TargetStep) (rb : ReadBack) (trip : Bool) (hdev : s.dev = .faulted)
    (ho : task.owner = .request i r) (hjob : s.job = some ⟨task, op, .format (k :: ks) bad step⟩)
    (hop : step.Operates k op) (hcat : task.work.cat.active = none) (hform : ArrayForm s) :
    ∃ t, exec (if trip then .arrayWatchdogTrip rb else .arrayOperationComplete rb) s = .next t ∧ OnlyCatalogue s t k ∧
      ∃ tb, RebuiltFrom s.flash bad tb ∧
      let ok := step.Verified t k rb trip
      let w := task.work
      let timing := (w.profile w.activeProfile).programClass
      let page := fun n => GoesOn s t task (.catPage k n 1 (imageOf tb) timing) (.format (k :: ks) bad (.page n))
      let usable := tb.usable.countP (· == true)
      (ok → step = .erasing → page 0) ∧
      (ok → ∀ n, step = .page n → (n < 15 → page (n + 1)) ∧
        (15 ≤ n → GoesOn s t task (.catMark k timing) (.format (k :: ks) bad .marking))) ∧
      (ok → step = .marking → Completes { s with dev := .running, faultedProfile := none } t i r .ok
        ([0x01, 0x00] ++ be16 tb.dirty.length ++ [0x00, 0x00] ++ [byteOf usable])
        { w with tables := tb, cat := ⟨some k, 0, 1, false⟩ }
        (task.events ++ if usable = 1 then
          [⟨.catalogueDegraded, ⟨s.tick, s.timeUnset⟩, 0x01, BitVec.ofNat 32 (bad.getLastD 0)⟩] else [])
        (task.alarms ||| if usable = 1 then 0x10 else 0)) ∧
      (¬ ok → ∀ j js, ks = j :: js → GoesOn s t (task.carrying w [] 0x01)
        (.catErase j (w.profile w.activeProfile).eraseClass) (.format (j :: js) (bad ++ [k]) .erasing)) ∧
      (¬ ok → ks = [] → CompletesFaulted s t i r .mediaFault [] w task.events (task.alarms ||| 0x01)) ∧
      (¬ ok → (catSegAt s.catSegs k).mark = false ∨ step = .erasing ∧ (catSegAt s.catSegs k).valid = false →
        (catSegAt t.catSegs k).valid = false) := by
  have hframe := hop.land_frame (s := s) (rb := rb) (trip := trip)
  have honly := hop.land_only (s := s) (rb := rb) (trip := trip)
  have hinvalid := hop.land_invalid (s := s) (rb := rb) (trip := trip)
  have hverified (t : State) := hop.verified_iff (s := s) (t := t) (rb := rb) (trip := trip)
  have hexec := exec_arrayEnd_stage (by rw [hdev]; exact nofun) hjob hop.isArray rb trip
  dsimp only at hexec
  refine ⟨_, hexec, ?_⟩
  generalize s.land op rb trip = u at hframe honly hinvalid hverified ⊢
  obtain ⟨hflash', hsegs', hfuses'⟩ := State.stageEnds_arrays u ⟨task, op, .format (k :: ks) bad step⟩
    (u.verified op rb && !trip) trip
  have hu : ArraysLeft s u := by rw [hframe]
  have hflash : u.flash = s.flash := by rw [hframe]
  refine ⟨⟨hfuses'.trans honly.1, fun j hj => by rw [hsegs']; exact honly.2.1 j hj,
    fun a => by rw [hflash']; exact honly.2.2 a⟩, formatTables s.flash bad, formatTables_rebuilt hform bad, ?_⟩
  dsimp only
  have hok := hverified _ hsegs'
  rw [← hok]
  have hends : (u.stageEnds ⟨task, op, .format (k :: ks) bad step⟩ (u.verified op rb && !trip) trip) =
    u.formatEnds task (k :: ks) bad step (u.verified op rb && !trip) := rfl
  rw [hsegs', hends]
  clear hok hends hsegs' hflash' hfuses' hverified
  generalize (u.verified op rb && !trip) = ok at hinvalid ⊢
  refine ⟨?erased, ?page, ?marked, ?next, ?last, hinvalid⟩
  case erased =>
    rintro rfl rfl
    rw [← hflash]
    exact State.begin_goesOn hu _ _ _
  case page =>
    rintro rfl n rfl
    refine ⟨fun hn => ?_, fun hn => ?_⟩
    · rw [← hflash, show u.formatEnds task (k :: ks) bad (.page n) true = _ from if_pos hn]
      exact State.begin_goesOn hu _ _ _
    · rw [show u.formatEnds task (k :: ks) bad (.page n) true = _ from if_neg (Nat.not_lt.mpr hn)]
      exact State.begin_goesOn hu _ _ _
  case marked =>
    rintro rfl rfl
    exact State.formatDone_completes hframe hdev ho rfl
  case next =>
    rintro hfails j js rfl
    obtain rfl := Bool.eq_false_of_not_eq_true hfails
    rw [Task.carrying, List.append_nil]
    exact State.begin_goesOn hu _ _ _
  case last =>
    rintro hfails rfl
    obtain rfl := Bool.eq_false_of_not_eq_true hfails
    exact State.complete_completesFaulted hframe (t := task.latch alarmMediaFault) ho hdev hcat .mediaFault []

/-- Settles O53: each request's one entry; the segments a TRIM releases; FORMAT in FAULTED from its start to its end. -/
theorem structuralRequestsProgramOneEntry : Obligations.StructuralRequestsProgramOneEntry := by
  refine ⟨?requests, releasedBy_spec, formatFaultedStarts, formatFaultedEnds⟩
  intro s tag id env hacc hidle hw hid
  obtain ⟨hcreate, hdelete, hseal, hset, hclear, hformat⟩ := structuralRequests s tag id env hacc hidle hw hid
  refine ⟨fun n hguard hstate hhold hold hnext => ?trim, hcreate, hdelete, hseal, hset, hclear, fun harm hguard hfree => ?format,
    fun code v hallowed hguard => ?option, fun n hguard hstate hhold hold hnext => ?trimmed⟩
  case trim =>
    obtain ⟨t, hexec, hentry, -⟩ := trimEnds hacc hidle hw hid hguard hstate hhold hnext
    refine ⟨t, hexec, ?_⟩
    rw [List.append_assoc]
    exact hentry hold
  case format =>
    obtain ⟨t, hexec, hentry⟩ := hformat harm hguard hfree
    refine ⟨t, hexec, ?_⟩
    rw [List.append_assoc]
    exact hentry
  case option =>
    have hcode : code.toNat ≠ 0 := by
      rcases hallowed with h | h | h | h | h | h | h | h | h <;> obtain ⟨h, -⟩ := h <;> omega
    obtain ⟨t, hexec, hentry⟩ := structuralOption hacc hidle hw hallowed hguard
    refine ⟨t, hexec, ?_⟩
    rw [Settings.get_eq_getD, if_neg hcode] at hentry
    exact hentry
  case trimmed =>
    obtain ⟨t, hexec, -, hdone⟩ := trimEnds hacc hidle hw hid hguard hstate hhold hnext
    exact ⟨t, hexec, hdone hold⟩

end Sys2Proof.Machine
end

section
/-! The ends of an APPEND's programs and entries, and O56. -/

namespace Sys2Proof.Machine

theorem Tables.stream_setStream_self (tb : Tables) {id : Nat} (x : Machine.Stream) (h : id < tb.streams.length) :
    (tb.setStream id x).stream id = x := by
  simp [Tables.stream, Tables.setStream, h]

/-- Whatever the stage of an array operation that ends, the array and the fuse store are as the operation left them (R47). -/
theorem exec_arrayEnd_arrays {s : State} {j : Job} (hjob : s.job = some j) (harray : j.op.isArray = true) (rb : ReadBack)
    (trip : Bool) : ∃ t, exec (if trip then .arrayWatchdogTrip rb else .arrayOperationComplete rb) s = .next t ∧
      t.flash = (s.land j.op rb trip).flash ∧ t.catSegs = (s.land j.op rb trip).catSegs ∧
      t.fuses = (s.land j.op rb trip).fuses := by
  by_cases hdev : s.dev = .resetting
  · refine ⟨_, exec_arrayEnd_draining hdev hjob harray rb trip, ?_⟩
    rw [State.drainEnds_frame]
    exact ⟨rfl, rfl, rfl⟩
  · exact ⟨_, exec_arrayEnd_stage hdev hjob harray rb trip, State.stageEnds_arrays _ _ _ _⟩

/-- A program of the array has verified exactly if no watchdog stopped it and every one of its cells reads as it was to
(R47). -/
theorem State.programVerified_iff {s t : State} {cells : List Host.Cell} {timing : Nat} {rb : ReadBack} {trip : Bool}
    (hform : ArrayForm s) (hnodup : (cells.map Prod.fst).Nodup)
    (ht : t.flash = (s.land (.program cells timing) rb trip).flash) :
    ((s.land (.program cells timing) rb trip).verified (.program cells timing) rb && !trip) = true ↔
      trip = false ∧ ∀ x ∈ cells, readByte t.flash x.1 = x.2 := by
  rw [Bool.and_eq_true, Bool.not_eq_true', and_comm, ht]
  exact and_congr_right' (beq_iff_eq.trans (landedCells_verified hform hnodup rb).symm)

/-- The working copy once a slot of the stream is used, with this next number and closure (R36, R48, R90). -/
def Committed.atSlot (w : Committed) (a : AppendData) (slot next : Nat) (closed : Bool) : Committed :=
  { w with tables := w.tables.setStream a.id
             { w.tables.stream a.id with writePos := slot + 1, next := next, closed := closed } }

section Ends

variable {s u : State} {task : Machine.Task} {i : Nat} {r : Request}

/-- A verified mark program completes the APPEND, next and the write position one greater (R36, R90, R100). -/
theorem State.markEnds_verified (hu : ArraysLeft s u) (hd : s.dev = .running) (ho : task.owner = .request i r) (a : AppendData)
    (seg slot : Nat) (hid : a.id < task.work.tables.streams.length) :
    let st := task.work.tables.stream a.id
    Completes s (u.markEnds task a seg slot true).settle i r .ok (recordReply st.next a seg slot)
      (task.work.atSlot a slot (st.next + 1) st.closed) task.events task.alarms := by
  have hdone := State.complete_completes hu.leftBy (t := task.commitRecord a.id slot) ho hd .ok
    (appendReply (task.commitRecord a.id slot) a seg slot)
  have hreply : appendReply (task.commitRecord a.id slot) a seg slot =
      recordReply (task.work.tables.stream a.id).next a seg slot := by
    have hnext : (Task.streamOf (task.commitRecord a.id slot) a).next - 1 = (task.work.tables.stream a.id).next := by
      rw [Task.streamOf, Task.commitRecord]
      dsimp only [Task.setTables]
      rw [Tables.stream_setStream_self _ _ hid]
      rfl
    rw [appendReply, hnext]
    simp only [recordReply, List.append_assoc, List.cons_append, List.nil_append]
  have hends : u.markEnds task a seg slot true =
      u.complete (task.commitRecord a.id slot) .ok (appendReply (task.commitRecord a.id slot) a seg slot) := rfl
  rw [← hends, hreply] at hdone
  exact hdone

/-- A failed program of the mark whose byte reads 5Ah is a record all the same, in a segment that is closed (R48, R99). -/
theorem State.markEnds_recorded (hu : ArraysLeft s u) (hd : s.dev = .running) (a : AppendData) (seg slot : Nat)
    (hreads : readByte u.flash (seg * 32768 + 512 + slot * (task.work.tables.stream a.id).slotSize + 7) = 0x5A) :
    let st := task.work.tables.stream a.id
    EntryNext s (u.markEnds task a seg slot false).settle
      (task.carrying (task.work.atSlot a slot (st.next + 1) true) [] 0x01) (.suspect seg) []
      (.recorded a seg slot) := by
  have hends : u.markEnds task a seg slot false =
      u.makeSuspect (task.commitRecord a.id slot) a.id seg (.recorded a seg slot) := if_pos hreads
  have hnext := State.makeSuspect_next hu hd (task.commitRecord a.id slot) a.id seg (.recorded a seg slot)
  rw [Task.commitRecord_closed] at hnext
  rw [hends]
  exact hnext

/-- A failed program of a body, or of a mark that reads otherwise, leaves a void and closes the segment (R48, R99). -/
theorem State.slot_spent (hu : ArraysLeft s u) (hd : s.dev = .running) (a : AppendData) (seg slot : Nat) (after : After) :
    let st := task.work.tables.stream a.id
    EntryNext s (u.makeSuspect (task.useSlot a.id slot) a.id seg after).settle
      (task.carrying (task.work.atSlot a slot st.next true) [] 0x01) (.suspect seg) [] after := by
  have hnext := State.makeSuspect_next hu hd (task.useSlot a.id slot) a.id seg after
  rw [Task.useSlot_closed] at hnext
  exact hnext

theorem State.markEnds_spent (hu : ArraysLeft s u) (hd : s.dev = .running) (a : AppendData) (seg slot : Nat)
    (hreads : readByte u.flash (seg * 32768 + 512 + slot * (task.work.tables.stream a.id).slotSize + 7) ≠ 0x5A) :
    let st := task.work.tables.stream a.id
    EntryNext s (u.markEnds task a seg slot false).settle
      (task.carrying (task.work.atSlot a slot st.next true) [] 0x01) (.suspect seg) []
      (if a.secondAttempt then .giveUp a else .retry a) := by
  have hends : u.markEnds task a seg slot false =
      u.makeSuspect (task.useSlot a.id slot) a.id seg (if a.secondAttempt then .giveUp a else .retry a) := if_neg hreads
  rw [hends]
  exact State.slot_spent hu hd a seg slot _

theorem Stream.nextLink_eq (st : Machine.Stream) : st.nextLink =
    match st.segs.getLast? with | none => 1 | some l => nextLinkNumber l.linkNumber := by
  unfold Stream.nextLink Stream.newest
  cases st.segs.getLast? <;> rfl

end Ends

/-! ### Every end of a program, and of an entry -/

/-- The ends of the programs of an APPEND (R48, R52, R53, R90, R99, R100). -/
theorem appendProgramEnds (s : State) (i : Nat) (r : Request) (task : Machine.Task) (cells : List Host.Cell) (timing : Nat)
    (stage : Stage) (rb : ReadBack) (trip : Bool) (hwork : Working s task (.program cells timing) stage)
    (ho : task.owner = .request i r) (hform : ArrayForm s) (hnodup : (cells.map Prod.fst).Nodup) :
    let w := task.work
    let failed := fun c : Committed => task.carrying c [] 0x01
    ∃ t, exec (if trip then .arrayWatchdogTrip rb else .arrayOperationComplete rb) s = .next t ∧
      OnlyBytes s t (fun x => x ∈ cells.map Prod.fst) ∧
      let ok := trip = false ∧ ∀ x ∈ cells, readByte t.flash x.1 = x.2
      (∀ a seg, stage = .descriptor a seg →
        let st := w.tables.stream a.id
        (ok → EntryNext s t task (.linked seg a.id st.nextLink st.next) [] (.record a)) ∧
        (¬ ok → EntryNext s t (failed w) (.retired seg .descriptorFailed) [] (.allocate a 0))) ∧
      (∀ a seg slot, stage = .body a seg slot →
        let st := w.tables.stream a.id
        (ok → GoesOn s t task (.program [(seg * 32768 + 512 + slot * st.slotSize + 7, 0x5A)]
          (w.profile w.activeProfile).programClass) (.mark a seg slot)) ∧
        (¬ ok → EntryNext s t (failed (w.atSlot a slot st.next true)) (.suspect seg) []
          (if a.secondAttempt then .giveUp a else .retry a))) ∧
      ∀ a seg slot, stage = .mark a seg slot →
        let st := w.tables.stream a.id
        let reads := readByte t.flash (seg * 32768 + 512 + slot * st.slotSize + 7)
        (ok → a.id < w.tables.streams.length →
          Completes s t i r .ok (recordReply st.next a seg slot) (w.atSlot a slot (st.next + 1) st.closed) task.events
            task.alarms) ∧
        (¬ ok → reads = 0x5A →
          EntryNext s t (failed (w.atSlot a slot (st.next + 1) true)) (.suspect seg) [] (.recorded a seg slot)) ∧
        (¬ ok → reads ≠ 0x5A → EntryNext s t (failed (w.atSlot a slot st.next true)) (.suspect seg) []
          (if a.secondAttempt then .giveUp a else .retry a)) := by
  refine ⟨_, hwork.exec_arrayEnd rfl rb trip, ?_⟩
  have hu := s.land_arraysLeft (.program cells timing) rb trip
  have honly : OnlyBytes s (s.land (.program cells timing) rb trip) (fun x => x ∈ cells.map Prod.fst) :=
    s.land_onlyTarget (.program cells timing) rb trip
  have hverified (t : State) := State.programVerified_iff (t := t) (timing := timing) (rb := rb) (trip := trip) hform hnodup
  generalize s.land (.program cells timing) rb trip = u at hu honly hverified ⊢
  have hd := hwork.1
  obtain ⟨hflash', hsegs', hfuses'⟩ := State.stageEnds_arrays u ⟨task, .program cells timing, stage⟩
    (u.verified (.program cells timing) rb && !trip) trip
  refine ⟨⟨hsegs'.trans honly.1, hfuses'.trans honly.2.1, fun x hx => by rw [hflash']; exact honly.2.2 x hx⟩, ?_⟩
  dsimp only
  rw [← hverified _ hflash', hflash']
  clear hflash' hsegs' hfuses' hverified
  generalize (u.verified (.program cells timing) rb && !trip) = ok
  refine ⟨?descriptor, ?body, ?mark⟩
  case descriptor =>
    rintro a seg rfl
    refine ⟨?_, fun hfails => ?_⟩
    · rintro rfl
      exact State.writeEntry_next hu hd task _ _
    · obtain rfl := Bool.eq_false_of_not_eq_true hfails
      have hnext := State.writeEntry_next hu hd (task.latch alarmMediaFault) (.retired seg .descriptorFailed) (.allocate a 0)
      rw [Task.carrying, List.append_nil]
      exact hnext
  case body =>
    rintro a seg slot rfl
    refine ⟨?_, fun hfails => ?_⟩
    · rintro rfl
      exact State.begin_goesOn hu task _ _
    · obtain rfl := Bool.eq_false_of_not_eq_true hfails
      exact State.slot_spent hu hd a seg slot _
  case mark =>
    rintro a seg slot rfl
    refine ⟨?_, fun hfails => ?_, fun hfails => ?_⟩
    · rintro rfl hid
      exact State.markEnds_verified hu hd ho a seg slot hid
    · obtain rfl := Bool.eq_false_of_not_eq_true hfails
      exact State.markEnds_recorded hu hd a seg slot
    · obtain rfl := Bool.eq_false_of_not_eq_true hfails
      exact State.markEnds_spent hu hd a seg slot

/-- The newest segment of a stream right after the entry that links it (R52, R54). -/
theorem Tables.stream_linked (tb : Tables) (seg id : Nat) (link : Word) (first : Nat) (h : id < tb.streams.length) :
    (applyEntry tb (.linked seg id link first)).stream id =
      { tb.stream id with segs := (tb.stream id).segs ++ [⟨seg, link, first⟩], recordedNext := first, writePos := 0,
                          closed := false } :=
  Tables.stream_setStream_self _ _ h

/-- Only an allocation counts the eviction before it (R98). -/
theorem After.counted_eq {after : After} (h : ∀ a gain, after ≠ .allocate a gain) (e : Entry) : after.counted e = after := by
  cases after
  case allocate a gain => exact absurd rfl (h a gain)
  all_goals cases e <;> rfl

/-- The ends of the entries of an APPEND (R95, R98, R99, R101). -/
theorem appendEntryEnds (s : State) (i : Nat) (r : Request) (task : Machine.Task) (k pos timing : Nat) (e : Entry)
    (after : After) : Working s task (.catEntry k pos e timing) (.catalogue ⟨[.write e], none, after⟩) →
    task.owner = .request i r →
    ∃ t, exec (.arrayOperationComplete .asIntended) s = .next t ∧ EntryEnds s t task k e (fun u =>
      let now : Stamp := ⟨s.tick, s.timeUnset⟩
      let w := u.work
      let fails := fun (a : AppendData) (status : Status) (more : List Raised) =>
        Completes s t i r status (unrecorded w a) w (u.events ++ more) u.alarms
      (∀ seg id link first a, e = .linked seg id link first → after = .record a → a.id = id →
        id < task.work.tables.streams.length →
        GoesOn s t u (.program (recordCells (w.tables.stream id) a (seg * 32768 + 512))
          (w.profile w.activeProfile).programClass) (.body a seg 0)) ∧
      (∀ a gain, after = .allocate a gain →
        let b := match e with
          | .evicted _ _ _ => { a with evicted := a.evicted + gain }
          | _ => a
        Allocates w b now (GoesOn s t u) (fun e' next => EntryNext s t u e' [] next) (fails b)) ∧
      (∀ a, after = .retry a → NeedsSegment w { a with secondAttempt := true } now (GoesOn s t u)
        (fun e' next => EntryNext s t u e' [] next) (fails { a with secondAttempt := true })) ∧
      (∀ a, after = .giveUp a → fails a .mediaFault []) ∧
      ∀ a seg slot, after = .recorded a seg slot →
        Completes s t i r .ok (recordReply ((w.tables.stream a.id).next - 1) a seg slot) w u.events u.alarms) := by
  intro hwork ho
  refine hwork.entryEnds _ fun u hu => ?_
  have harrays : ArraysLeft s u := by rw [hu]
  have hdone := State.afterWriter_done harrays hwork.1 (task.wrote ⟨s.tick, s.timeUnset⟩ e) (after.counted e)
  have howner : (task.wrote ⟨s.tick, s.timeUnset⟩ e).owner = .request i r := ho
  dsimp only
  refine ⟨?linked, ?allocate, ?retry, ?giveUp, ?recorded⟩
  case linked =>
    rintro seg id link first a rfl rfl rfl hid
    have hstream := Tables.stream_linked task.work.tables seg a.id link first hid
    have hnewest : ((applyEntry task.work.tables (.linked seg a.id link first)).stream a.id).segs.getLast? =
        some ⟨seg, link, first⟩ := by rw [hstream]; exact List.getLast?_concat
    have hposition : ((applyEntry task.work.tables (.linked seg a.id link first)).stream a.id).writePos = 0 := by rw [hstream]
    rw [After.counted_eq (after := .record a) (fun _ _ => nofun)] at hdone ⊢
    have hbody := hdone ⟨seg, link, first⟩ hnewest
    dsimp only [Task.wrote, Task.raise, Task.latch, Task.setTables, Task.setCat] at hbody
    rw [hposition, Nat.zero_mul] at hbody
    exact hbody
  case allocate =>
    rintro a gain rfl
    cases e
    all_goals exact hdone i r howner
  case retry =>
    rintro a rfl
    rw [After.counted_eq (after := .retry a) (fun _ _ => nofun)] at hdone ⊢
    exact hdone i r howner
  case giveUp =>
    rintro a rfl
    rw [After.counted_eq (after := .giveUp a) (fun _ _ => nofun)] at hdone ⊢
    rw [List.append_nil]
    exact hdone i r howner
  case recorded =>
    rintro a seg slot rfl
    rw [After.counted_eq (after := .recorded a seg slot) (fun _ _ => nofun)] at hdone ⊢
    exact hdone i r howner

/-- Settles O56: where a program lands, the commit of a record, and every end of an APPEND's programs and entries. -/
theorem recordProgramsLandAndCommit : Obligations.RecordProgramsLandAndCommit := by
  refine ⟨fun n hn => nextNumber_toNat _ hn, ?lands, ?commits, ?programs, appendEntryEnds⟩
  case lands =>
    rintro s ⟨task, op, stage⟩ cells timing hform hjob rfl hnodup
    obtain ⟨t, hexec, hflash, hsegs, hfuses⟩ := exec_arrayEnd_arrays hjob rfl .asIntended false
    have honly : OnlyBytes s (s.land (.program cells timing) .asIntended false) (fun x => x ∈ cells.map Prod.fst) :=
      s.land_onlyTarget (.program cells timing) .asIntended false
    refine ⟨t, hexec, fun c hc => ?_, fun x hx => ?_, hsegs, hfuses⟩
    · rw [hflash]
      exact readByte_writeCells_same cells hform hnodup hc
    · rw [hflash]
      exact honly.2.2 x hx
  case commits =>
    intro s i r w a seg slot timing hdev
    dsimp only
    intro hjob hid
    have hwork : Working s ⟨.request i r, w, [], 0⟩ (.program (markCell (slotBase seg (w.tables.stream a.id).slotSize slot)) timing)
      (.mark a seg slot) := ⟨hdev, hjob⟩
    obtain ⟨cells, hcells⟩ : ∃ cells, markCell (slotBase seg (w.tables.stream a.id).slotSize slot) = cells := ⟨_, rfl⟩
    rw [hcells] at hwork
    have hexec := hwork.exec_arrayEnd rfl .asIntended false
    have hok : ((s.land (.program cells timing) .asIntended false).verified (.program cells timing) .asIntended && !false) =
      true := by rw [Bool.and_eq_true]; exact ⟨beq_self_eq_true cells, rfl⟩
    have hu := s.land_arraysLeft (.program cells timing) .asIntended false
    have honly : OnlyBytes s (s.land (.program cells timing) .asIntended false) (fun x => x ∈ cells.map Prod.fst) :=
      s.land_onlyTarget (.program cells timing) .asIntended false
    rw [hok] at hexec
    generalize s.land (.program cells timing) .asIntended false = u at hexec hu honly
    obtain ⟨hflash, hsegs, hfuses⟩ := State.stageEnds_arrays u
      ⟨⟨.request i r, w, [], 0⟩, .program cells timing, .mark a seg slot⟩ true false
    have hdone := State.markEnds_verified (task := ⟨.request i r, w, [], 0⟩) hu hdev rfl a seg slot hid
    refine ⟨_, hexec, ?_⟩
    replace hdone : Completes s (State.settle (State.stageEnds u
      ⟨⟨.request i r, w, [], 0⟩, .program cells timing, .mark a seg slot⟩ true false)) i r .ok _ _ [] 0 := hdone
    generalize State.settle (State.stageEnds u _ true false) = t at hflash hsegs hfuses hdone ⊢
    obtain ⟨hcommits, hcontexts, hnumber, -, -⟩ := hdone
    refine ⟨?reply, hnumber, congrArg State.job hcommits, congrArg State.committed hcommits, ?alarms, hsegs.trans honly.1,
      hfuses.trans honly.2.1, (congrArg State.tick hcommits).trans rfl, (congrArg State.txn hcommits).trans rfl, (congrArg State.sdo hcommits).trans rfl,
      (congrArg State.events hcommits).trans rfl, (congrArg State.poolLow hcommits).trans rfl, fun x hx => ?_⟩
    case reply => exact hcontexts
    case alarms => exact (congrArg State.alarms hcommits).trans BitVec.or_zero
    · rw [hflash]
      refine honly.2.2 x ?_
      rw [← hcells]
      simpa [markCell, markOffset] using hx
  case programs =>
    intro s i r task cells timing stage rb trip hwork ho hform hnodup
    obtain ⟨t, hexec, honly, hdescriptor, hbody, hmark⟩ :=
      appendProgramEnds s i r task cells timing stage rb trip hwork ho hform hnodup
    refine ⟨t, hexec, honly, fun a seg hstage => ?_, hbody, hmark⟩
    have hlinks := hdescriptor a seg hstage
    dsimp only at hlinks
    rw [Stream.nextLink_eq] at hlinks
    exact hlinks

end Sys2Proof.Machine
end

section
/-! The ends of the catalogue writer's operations (R60, R61, R62, R63). -/

namespace Sys2Proof.Machine

/-- An operation of the writer that ends: its catalogue segment alone has changed, and the writer goes on from there. -/
theorem Working.catalogueEnds {s u : State} {task : Machine.Task} {op : Operation} {w : CatWork} {k : Nat} {rb : ReadBack}
    {trip : Bool} (h : Working s task op (.catalogue w)) (harray : op.isArray = true) (hland : s.land op rb trip = u)
    (hu : u = { s with catSegs := u.catSegs }) (honly : OnlyCatalogue s u k) :
    ∃ t, exec (if trip then .arrayWatchdogTrip rb else .arrayOperationComplete rb) s = .next t ∧ OnlyCatalogue s t k ∧
      t.catSegs = u.catSegs ∧ t.flash = s.flash ∧ t.fuses = s.fuses ∧
      t = (u.runWriter (w.afterOperation (u.verified op rb && !trip))
        (writerEnds u.catSegs ⟨s.tick, s.timeUnset⟩ task w (u.verified op rb && !trip))).settle := by
  have hexec := h.exec_arrayEnd harray rb trip
  rw [hland] at hexec
  obtain ⟨hflash, hsegs, hfuses⟩ := State.stageEnds_arrays u ⟨task, op, .catalogue w⟩ (u.verified op rb && !trip) trip
  have hstamp : u.stamp = ⟨s.tick, s.timeUnset⟩ := by rw [hu]; rfl
  have hflash' : u.flash = s.flash := by rw [hu]
  have hfuses' : u.fuses = s.fuses := by rw [hu]
  refine ⟨_, hexec, ⟨hfuses.trans hfuses', fun j hj => ?_, fun a => ?_⟩, hsegs, hflash.trans hflash', hfuses.trans hfuses', ?_⟩
  · rw [hsegs]
    exact honly.2.1 j hj
  · rw [hflash, hflash']
  · rw [← hstamp]
    rfl

section Entry

variable {s : State} {task : Machine.Task} {k pos timing : Nat} {e : Entry} {rest : List CatAction} {after : After}

theorem State.land_catEntry_frame (s : State) (k pos timing : Nat) (e : Entry) (rb : ReadBack) (trip : Bool) :
    s.land (.catEntry k pos e timing) rb trip =
      { s with catSegs := (s.land (.catEntry k pos e timing) rb trip).catSegs } := rfl

/-- The program of an entry verifies: the entry stands in its position, and the writer goes on with its queue (R60). -/
theorem Working.entryWritten (h : Working s task (.catEntry k pos e timing) (.catalogue ⟨.write e :: rest, none, after⟩)) :
    ∃ t, exec (.arrayOperationComplete .asIntended) s = .next t ∧ PositionHolds s t k pos (.entry e) ∧ t.flash = s.flash ∧
      EntryEnds s t task k e (fun u => QueueNext s t u (after.counted e) rest) := by
  have hframe := s.land_catEntry_frame k pos timing e .asIntended false
  obtain ⟨t, hexec, honly, hsegs, hflash, -, ht⟩ := h.catalogueEnds rfl rfl hframe
    (s.land_onlyTarget (.catEntry k pos e timing) .asIntended false)
  have hholds := s.land_catEntry k pos timing e .asIntended false
  generalize s.land (.catEntry k pos e timing) .asIntended false = u at hframe hsegs ht hholds
  have harrays : ArraysLeft s u := by rw [hframe]
  refine ⟨t, hexec, fun hk => ?_, hflash, honly, _, _, entryEvents_raises _ _ _, ?_⟩
  · rw [hsegs]
    exact hholds hk
  · rw [ht]
    exact State.writeNext_next harrays h.1 (task.wrote ⟨s.tick, s.timeUnset⟩ e) (after.counted e) rest

/-- The program of an entry fails: its position is spent, and the entry is written again from the choice of a compaction on
(R47, R49, R60). -/
theorem Working.entrySpent (h : Working s task (.catEntry k pos e timing) (.catalogue ⟨.write e :: rest, none, after⟩))
    {rb : ReadBack} {trip : Bool} (hfails : trip = true ∨ rb ≠ .asIntended) :
    ∃ t, exec (if trip then .arrayWatchdogTrip rb else .arrayOperationComplete rb) s = .next t ∧ OnlyCatalogue s t k ∧
      t.flash = s.flash ∧
      EntryNext s t (task.carrying { task.work with cat := { task.work.cat with fill := task.work.cat.fill + 1 } } [] 0x01)
        e rest after := by
  have hframe := s.land_catEntry_frame k pos timing e rb trip
  obtain ⟨t, hexec, honly, -, hflash, -, ht⟩ := h.catalogueEnds rfl rfl hframe
    (s.land_onlyTarget (.catEntry k pos e timing) rb trip)
  generalize s.land (.catEntry k pos e timing) rb trip = u at hframe ht
  have harrays : ArraysLeft s u := by rw [hframe]
  have hbad : (u.verified (.catEntry k pos e timing) rb && !trip) = false := by
    rcases hfails with rfl | hrb
    · exact Bool.and_false _
    · exact (congrArg (· && !trip) (decide_eq_false hrb)).trans (Bool.false_and _)
  refine ⟨t, hexec, honly, hflash, ?_⟩
  rw [ht, hbad, Task.carrying, List.append_nil]
  exact State.writeHead_next harrays h.1 task.spent e rest after

/-- A program that the watchdog stopped ends as one that did not verify (R47, R60). -/
theorem Working.entrySpent_untripped
    (h : Working s task (.catEntry k pos e timing) (.catalogue ⟨.write e :: rest, none, after⟩)) {rb : ReadBack}
    (hrb : rb ≠ .asIntended) : exec (.arrayOperationComplete rb) s = exec (.arrayWatchdogTrip rb) s := by
  have hland : s.land (.catEntry k pos e timing) rb false = s.land (.catEntry k pos e timing) rb true := by
    simp [State.land, CatSegment.afterEntry, hrb]
  have hcomplete := h.exec_arrayEnd rfl rb false
  have htrip := h.exec_arrayEnd rfl rb true
  have hbad : (State.land s (.catEntry k pos e timing) rb true).verified (.catEntry k pos e timing) rb = false :=
    decide_eq_false hrb
  rw [hland, hbad] at hcomplete
  rw [hbad] at htrip
  exact hcomplete.trans htrip.symm

end Entry

/-- The erase of a former active segment ends: the writer goes on, or makes that segment unusable first (R61, R62). -/
theorem Working.formerErased {s : State} {task : Machine.Task} {j timing : Nat} {rest : List CatAction} {after : After}
    (rb : ReadBack) (trip : Bool)
    (h : Working s task (.catErase j timing) (.catalogue ⟨.eraseFormer j :: rest, none, after⟩)) :
    ∃ t, exec (if trip then .arrayWatchdogTrip rb else .arrayOperationComplete rb) s = .next t ∧ OnlyCatalogue s t j ∧
      let ok := trip = false ∧ (catSegAt t.catSegs j).readsErased = true
      (ok → QueueNext s t task after rest) ∧
      (¬ ok → EntryNext s t (task.carrying task.work [] 0x01) (.unusable j) rest after) := by
  have hframe : s.land (.catErase j timing) rb trip = { s with catSegs := (s.land (.catErase j timing) rb trip).catSegs } := rfl
  obtain ⟨t, hexec, honly, hsegs, -, -, ht⟩ := h.catalogueEnds rfl rfl hframe
    (s.land_onlyTarget (.catErase j timing) rb trip)
  have hverified := (show TargetStep.erasing.Operates j (.catErase j timing) from ⟨timing, rfl⟩).verified_iff hsegs
  generalize s.land (.catErase j timing) rb trip = u at hframe hsegs ht hverified
  have harrays : ArraysLeft s u := by rw [hframe]
  refine ⟨t, hexec, honly, ?_⟩
  have hok : (u.verified (.catErase j timing) rb && !trip) = true ↔
    trip = false ∧ (catSegAt t.catSegs j).readsErased = true := hverified
  dsimp only
  rw [← hok]
  clear hok hverified
  generalize (u.verified (.catErase j timing) rb && !trip) = ok at ht ⊢
  refine ⟨?_, fun hfails => ?_⟩
  · rintro rfl
    rw [ht]
    exact State.writeNext_next harrays h.1 task after rest
  · obtain rfl := Bool.eq_false_of_not_eq_true hfails
    rw [ht, Task.carrying, List.append_nil]
    exact State.writeHead_next harrays h.1 (task.latch alarmMediaFault) (.unusable j) rest after

end Sys2Proof.Machine
end

section
/-! The operations of a compaction (R59, R61, R62, R63). -/

namespace Sys2Proof.Machine

/-- What a step on a target leaves of it where its read-back is as intended (R61; log 10). -/
theorem TargetStep.Operates.land_target {s : State} {k : Nat} {op : Operation} {step : TargetStep} {trip : Bool}
    (h : step.Operates k op) (hk : k < s.catSegs.length) :
    let old := catSegAt s.catSegs k
    ∃ d, (s.land op .asIntended trip).catSegs[k]? = some d ∧
      (step = .erasing → d.readsErased = true) ∧
      (∀ generation image timing, op = .catPage k 0 generation image timing → d = { old with generation := some generation }) ∧
      (∀ n generation image timing, op = .catPage k (n + 1) generation image timing →
        d = { old with pages := n + 1, image := if n + 1 = 15 then some image else old.image }) ∧
      (step = .marking → trip = false → d = { old with mark := true }) ∧
      (step = .marking → trip = true → d.mark = old.mark) := by
  have hset (f : CatSegment → CatSegment) : (s.setCatSeg k f).catSegs[k]? = some (f (catSegAt s.catSegs k)) :=
    List.getElem?_set_self hk
  cases step
  case erasing =>
    obtain ⟨timing, rfl⟩ := h
    exact ⟨_, hset _, fun _ => rfl, nofun, nofun, nofun, nofun⟩
  case page n =>
    obtain ⟨generation, image, timing, rfl⟩ := h
    refine ⟨_, hset _, nofun, ?_, ?_, nofun, nofun⟩
    · rintro _ _ _ ⟨⟩
      rfl
    · rintro m _ _ _ ⟨⟩
      rw [CatSegment.afterPage, if_pos rfl, if_neg (Nat.succ_ne_zero m)]
      rfl
  case marking =>
    obtain ⟨timing, rfl⟩ := h
    refine ⟨_, hset _, nofun, nofun, nofun, ?_, ?_⟩
    · rintro - rfl
      rfl
    · rintro - rfl
      rfl

section Steps

variable {s t u : State} {task : Machine.Task} {k : Nat} {ks bad : List Nat} {e : Entry} {rest : List CatAction} {after : After}

/-- The first operation on the next target (R61). -/
theorem State.nextTarget_begins (hu : ArraysLeft s u) (task : Machine.Task) (queue : List CatAction) (c : Option Compaction)
    (after : After) (j : Nat) (js bad : List Nat) :
    TargetBegins u.catSegs task.work j (fun op step => GoesOn s
      (u.runWriter after (nextTarget u.catSegs task ⟨queue, c, after⟩ (j :: js) bad)).settle task op
      (.catalogue ⟨queue, some ⟨j :: js, bad, step⟩, after⟩)) := by
  obtain ⟨hpage, herase⟩ := targetOperation_begins u.catSegs task j
  have hgo (o : Operation × TargetStep) (ho : targetOperation u.catSegs task j = o) : GoesOn s
      (u.runWriter after (nextTarget u.catSegs task ⟨queue, c, after⟩ (j :: js) bad)).settle task o.1
      (.catalogue ⟨queue, some ⟨j :: js, bad, o.2⟩, after⟩) := by
    rw [← ho]
    exact State.begin_goesOn hu task _ _
  exact ⟨fun h => hgo _ (hpage h), fun h => hgo _ (herase h)⟩

/-- With no target left, the read-only condition and the entry that brought the compaction (R63). -/
theorem State.noTarget_readOnly (hu : ArraysLeft s u) (hd : s.dev = .running) (task : Machine.Task) (e : Entry)
    (rest : List CatAction) (c : Option Compaction) (after : After) (bad : List Nat) :
    ReadOnlyEntry s (u.runWriter after (nextTarget u.catSegs task ⟨.write e :: rest, c, after⟩ [] bad)).settle task e
      (unusables bad ++ rest) after := by
  have hnext : nextTarget u.catSegs task ⟨.write e :: rest, c, after⟩ [] bad =
      programEntry task.enterReadOnly e (unusables bad ++ rest) after := by
    have hneeds : ¬ task.enterReadOnly.work.cat.needsCompaction = true := by
      rw [needsCompaction_iff]
      rintro ⟨h, -⟩
      cases h
    rw [nextTarget]
    dsimp only [writeNext, List.cons_append]
    exact if_neg hneeds
  rw [hnext]
  exact State.programEntry_readOnly hu hd task e _ after

/-- The mark of a target makes it active; the entry that brought the compaction is its first (R61). -/
theorem State.marked_goesOn (hu : ArraysLeft s u) (task : Machine.Task) (k : Nat) (e : Entry) (rest : List CatAction)
    (c : Option Compaction) (after : After) (ks bad : List Nat) :
    GoesOn s (u.runWriter after (compactionEnds u.catSegs task ⟨.write e :: rest, c, after⟩ ⟨k :: ks, bad, .marking⟩ true)).settle
      { task with work := { task.work with cat := { task.work.cat with
          active := some k, fill := 0, generation := nextGeneration task.work.cat.generation } } }
      (.catEntry k 0 e (task.work.profile task.work.activeProfile).programClass)
      (.catalogue ⟨.write e :: unusables bad ++
        (match task.work.cat.active with | none => [] | some j => [.eraseFormer j]) ++ rest, none, after⟩) := by
  have hneeds : ¬ CatPosition.needsCompaction
      ⟨some k, 0, nextGeneration task.work.cat.generation, task.work.cat.readOnly⟩ = true := by
    simp [CatPosition.needsCompaction, cataloguePositions]
  have hends : compactionEnds u.catSegs task ⟨.write e :: rest, c, after⟩ ⟨k :: ks, bad, .marking⟩ true =
      .operate (task.setCat ⟨some k, 0, nextGeneration task.work.cat.generation, task.work.cat.readOnly⟩)
        (.catEntry k 0 e task.work.programTiming)
        ⟨.write e :: (unusableWrites bad ++ (match task.work.cat.active with | none => [] | some j => [.eraseFormer j]) ++ rest),
          none, after⟩ := if_neg hneeds
  rw [hends]
  exact State.begin_goesOn hu _ _ _

end Steps

/-- The operations of a compaction: each verified one leads to the next, and a target that fails is passed over (R59, R61,
R62, R63). -/
theorem compactionOperationEnds (s : State) (task : Machine.Task) (op : Operation) (k : Nat) (ks bad : List Nat)
    (step : TargetStep) (e : Entry) (rest : List CatAction) (after : After) (rb : ReadBack) (trip : Bool)
    (hwork : Working s task op (.catalogue ⟨.write e :: rest, some ⟨k :: ks, bad, step⟩, after⟩)) (hop : step.Operates k op) :
    ∃ t, exec (if trip then .arrayWatchdogTrip rb else .arrayOperationComplete rb) s = .next t ∧ OnlyCatalogue s t k ∧
      t.catSegs = (s.land op rb trip).catSegs ∧
      let ok := step.Verified t k rb trip
      let w := task.work
      let timing := (w.profile w.activeProfile).programClass
      let failed := task.carrying w [] 0x01
      let goesOn := fun (tk : Machine.Task) (op : Operation) (queue : List CatAction) (c : Option Compaction) =>
        GoesOn s t tk op (.catalogue ⟨queue, c, after⟩)
      let page := fun n => goesOn task (.catPage k n (nextGeneration w.cat.generation) (imageOf w.tables) timing)
        (.write e :: rest) (some ⟨k :: ks, bad, .page n⟩)
      (ok → step = .erasing → page 0) ∧
      (ok → ∀ n, step = .page n → (n < 15 → page (n + 1)) ∧
        (15 ≤ n → goesOn task (.catMark k timing) (.write e :: rest) (some ⟨k :: ks, bad, .marking⟩))) ∧
      (ok → step = .marking →
        goesOn { task with work := { w with cat := { w.cat with
            active := some k, fill := 0, generation := nextGeneration w.cat.generation } } }
          (.catEntry k 0 e timing)
          (.write e :: unusables bad ++ (match w.cat.active with | none => [] | some j => [.eraseFormer j]) ++ rest)
          none) ∧
      (¬ ok → ∀ j js, ks = j :: js → TargetBegins t.catSegs w j (fun op' step' =>
        goesOn failed op' (.write e :: rest) (some ⟨j :: js, bad ++ [k], step'⟩))) ∧
      (¬ ok → ks = [] → ReadOnlyEntry s t failed e (unusables (bad ++ [k]) ++ rest) after) := by
  have hframe := hop.land_frame (s := s) (rb := rb) (trip := trip)
  obtain ⟨t, hexec, honly, hsegs, -, -, ht⟩ := hwork.catalogueEnds hop.isArray rfl hframe
    (hop.land_only (rb := rb) (trip := trip))
  have hverified := hop.verified_iff hsegs
  refine ⟨t, hexec, honly, hsegs, ?_⟩
  generalize s.land op rb trip = u at hframe hsegs ht hverified
  have hu : ArraysLeft s u := by rw [hframe]
  dsimp only
  rw [← hverified]
  generalize (u.verified op rb && !trip) = ok at ht ⊢
  have hends : t = (u.runWriter after (compactionEnds u.catSegs task
    ⟨.write e :: rest, some ⟨k :: ks, bad, step⟩, after⟩ ⟨k :: ks, bad, step⟩ ok)).settle := ht
  refine ⟨?erased, ?page, ?marked, ?next, ?last⟩
  case erased =>
    rintro rfl rfl
    rw [hends]
    exact State.begin_goesOn hu _ _ _
  case page =>
    rintro rfl n rfl
    have hpage : compactionEnds u.catSegs task ⟨.write e :: rest, some ⟨k :: ks, bad, .page n⟩, after⟩
        ⟨k :: ks, bad, .page n⟩ true = if n < lastImagePage then
          .operate task (pageOperation task k (n + 1)) ⟨.write e :: rest, some ⟨k :: ks, bad, .page (n + 1)⟩, after⟩
        else .operate task (.catMark k task.work.programTiming)
          ⟨.write e :: rest, some ⟨k :: ks, bad, .marking⟩, after⟩ := rfl
    rw [hends, hpage]
    refine ⟨fun hn => ?_, fun hn => ?_⟩
    · rw [if_pos (show n < lastImagePage from hn)]
      exact State.begin_goesOn hu _ _ _
    · rw [if_neg (show ¬ n < lastImagePage from Nat.not_lt.mpr hn)]
      exact State.begin_goesOn hu _ _ _
  case marked =>
    rintro rfl rfl
    rw [hends]
    exact State.marked_goesOn hu task k e rest _ after ks bad
  case next =>
    rintro hfails j js rfl
    obtain rfl := Bool.eq_false_of_not_eq_true hfails
    rw [hsegs, hends, Task.carrying, List.append_nil]
    exact State.nextTarget_begins hu (task.latch alarmMediaFault) (.write e :: rest) _ after j js (bad ++ [k])
  case last =>
    rintro hfails rfl
    obtain rfl := Bool.eq_false_of_not_eq_true hfails
    rw [hends, Task.carrying, List.append_nil]
    exact State.noTarget_readOnly hu hwork.1 (task.latch alarmMediaFault) e rest _ after (bad ++ [k])

end Sys2Proof.Machine
end

section
/-! What each entry changes, and O57. -/

namespace Sys2Proof.Machine

theorem Tables.setStream_becomes (t : Tables) (id : Nat) (x : Machine.Stream) : StreamBecomes t (t.setStream id x) id x := by
  refine ⟨rfl, List.length_set, fun h => t.stream_setStream_self x h, fun j hj => ?_⟩
  simp [Tables.stream, Tables.setStream, List.getD_eq_getElem?_getD, List.getElem?_set_ne (Ne.symm hj)]

theorem Tables.setSeg_becomes (t : Tables) (i : Nat) (x : SegEntry) (dirty : List Nat) :
    SegmentBecomes t { t.setSeg i x with dirty := dirty } i x dirty := by
  exact ⟨rfl, List.length_set, fun h => Tables.seg_setSeg_same h x, fun j hj => Tables.seg_setSeg_other t hj x⟩

theorem Stream.without_eq (st : Machine.Stream) (is : List Nat) :
    st.without is = { st with segs := st.segs.filter (fun l => decide (l.seg ∉ is)) } := by
  rw [Stream.without]
  congr 2
  funext l
  simp

theorem filter_bne_eq (l : List Nat) (seg : Nat) : l.filter (· != seg) = l.filter (fun i => decide (i ≠ seg)) := by
  congr 1
  funext i
  rw [Bool.eq_iff_iff]
  simp

/-- A settings item is written without touching another (R154). -/
theorem Settings.get_set (g : Settings) (code : Nat) (v : Half) {c : Nat} (hlow : 1 ≤ c) (hhigh : c ≤ 9) :
    (g.set code v).get c = if c = code then v else g.get c := by
  have hitems : c = 1 ∨ c = 2 ∨ c = 3 ∨ c = 4 ∨ c = 5 ∨ c = 6 ∨ c = 7 ∨ c = 8 ∨ c = 9 := by omega
  unfold Settings.set
  split
  case h_10 h1 h2 h3 h4 h5 h6 h7 h8 h9 =>
    have hne : c ≠ code := by
      rintro rfl
      rcases hitems with h | h | h | h | h | h | h | h | h
      exacts [h1 h, h2 h, h3 h, h4 h, h5 h, h6 h, h7 h, h8 h, h9 h]
    rw [if_neg hne]
  all_goals rcases hitems with rfl | rfl | rfl | rfl | rfl | rfl | rfl | rfl | rfl <;> rfl

/-- What each entry changes (R51, R54, R55, R57, R59, R62, R75, R154). -/
theorem applyEntry_changes (t : Tables) (e : Entry) : EntryChanges t (applyEntry t e) e := by
  cases e
  case created id x => exact t.setStream_becomes id x
  case sealed id next => exact t.setStream_becomes id _
  case holdSet id => exact t.setStream_becomes id _
  case holdCleared id => exact t.setStream_becomes id _
  case deleted id => exact Tables.setStream_becomes _ id _
  case trimmed id oldest is =>
    have h := (t.release is).setStream_becomes id { (t.stream id).without is with oldest := oldest }
    rw [Stream.without_eq] at h
    rw [applyEntry, Stream.without_eq]
    exact h
  case evicted id oldest is =>
    have h := (t.release is).setStream_becomes id { (t.stream id).without is with oldest := oldest }
    rw [Stream.without_eq] at h
    rw [applyEntry, Stream.without_eq]
    exact h
  case formatted => rfl
  case linked seg id link first => exact ⟨_, t.setSeg_becomes seg _ t.dirty, Tables.setStream_becomes _ id _⟩
  case suspect seg => exact t.setSeg_becomes seg _ t.dirty
  case retired seg reason =>
    rw [applyEntry, filter_bne_eq]
    exact t.setSeg_becomes seg _ _
  case erased seg count =>
    rw [applyEntry, filter_bne_eq]
    exact t.setSeg_becomes seg _ _
  case setting code v => exact ⟨rfl, fun c hlow hhigh => t.settings.get_set code v hlow hhigh⟩
  case unusable k =>
    refine ⟨rfl, List.length_set, fun j hj => ?_⟩
    rw [show (applyEntry t (.unusable k)).usable = t.usable.set k false from rfl, List.getElem?_set]
    by_cases hjk : k = j
    · subst hjk
      simp [hj]
    · simp [hjk, Ne.symm hjk]

/-! ### Every end of an entry's program -/

/-- The one entry of a structural request that verifies: its change is committed and the request completes OK (R36, R41,
R60, R75). -/
theorem structuralEntryCommits (s : State) (i k pos timing : Nat) (r : Request) (w : Committed) (e : Entry)
    (payload : List Byte) (hdev : s.dev = .running)
    (hjob : s.job = some ⟨⟨.request i r, w, [], 0⟩, .catEntry k pos e timing, .catalogue ⟨[.write e], none, .reply payload⟩⟩) :
    ∃ t, exec (.arrayOperationComplete .asIntended) s = .next t ∧
      t.contexts = s.contexts.set i (.held r (.done s.nextCompletion .ok payload)) ∧
      t.nextCompletion = s.nextCompletion + 1 ∧ t.job = none ∧ t.committed = w.withEntry e ∧
      (k < s.catSegs.length → ∃ d, t.catSegs[k]? = some d ∧
        d.positions = (catSegAt s.catSegs k).positions.take pos ++ [.entry e]) ∧
      (∀ j, j ≠ k → t.catSegs[j]? = s.catSegs[j]?) ∧ t.fuses = s.fuses ∧ t.tick = s.tick ∧ t.txn = s.txn ∧
      t.sdo = s.sdo ∧ t.echo = s.echo ∧ t.armLatch = s.armLatch ∧ ∀ a, readByte t.flash a = readByte s.flash a := by
  have hwork : Working s ⟨.request i r, w, [], 0⟩ (.catEntry k pos e timing) (.catalogue ⟨[.write e], none, .reply payload⟩) :=
    ⟨hdev, hjob⟩
  obtain ⟨t, hexec, hholds, hflash, ⟨hfuses, hothers, -⟩, events, alarms, -, hqueue⟩ := hwork.entryWritten
  rw [After.counted_eq (after := .reply payload) (fun _ _ => nofun)] at hqueue
  obtain ⟨hcommits, hcontexts, hnumber, -, -⟩ := hqueue i r rfl
  exact ⟨t, hexec, hcontexts, hnumber, congrArg State.job hcommits, congrArg State.committed hcommits,
    fun hk => ⟨_, hholds hk, rfl⟩, hothers, hfuses, (congrArg State.tick hcommits).trans rfl,
    (congrArg State.txn hcommits).trans rfl, (congrArg State.sdo hcommits).trans rfl,
    (congrArg State.echo hcommits).trans rfl, (congrArg State.armLatch hcommits).trans rfl,
    fun a => by rw [hflash]⟩

/-- A failed program of an entry with room behind it: the entry goes to the next position (R36, R47, R49, R60). -/
theorem entryRetried (s : State) (k timing : Nat) (t0 : Machine.Task) (e : Entry) (after : After) (rb : ReadBack)
    (hdev : s.dev = .running) (hactive : t0.work.cat.active = some k) (hroom : t0.work.cat.fill + 9 ≤ 768)
    (hjob : s.job = some ⟨t0, .catEntry k t0.work.cat.fill e timing, .catalogue ⟨[.write e], none, after⟩⟩) :
    ∃ t, exec (.arrayWatchdogTrip rb) s = .next t ∧
      t.job = some ⟨t0.carrying { t0.work with cat := { t0.work.cat with fill := t0.work.cat.fill + 1 } } [] 0x01,
        .catEntry k (t0.work.cat.fill + 1) e (t0.work.profile t0.work.activeProfile).programClass,
        .catalogue ⟨[.write e], none, after⟩⟩ ∧
      (rb ≠ .asIntended → exec (.arrayOperationComplete rb) s = .next t) ∧
      Becomes s t { s with job := t.job, catSegs := t.catSegs, alertLow := t.alertLow } ∧
      ∀ j, j ≠ k → t.catSegs[j]? = s.catSegs[j]? := by
  have hwork : Working s t0 (.catEntry k t0.work.cat.fill e timing) (.catalogue ⟨[.write e], none, after⟩) := ⟨hdev, hjob⟩
  obtain ⟨t, hexec, ⟨hfuses, hothers, hreads⟩, hflash, hnext, -⟩ := hwork.entrySpent (rb := rb) (trip := true) (.inl rfl)
  have hroom' : EntryRoom { t0.work with cat := { t0.work.cat with fill := t0.work.cat.fill + 1 } } k :=
    ⟨hactive, hroom⟩
  have hgo := hnext.1 k hroom'
  refine ⟨t, hexec, congrArg State.job hgo, fun hrb => ?_, ⟨?_, hreads⟩, hothers⟩
  · exact (hwork.entrySpent_untripped hrb).trans hexec
  · refine hgo.trans ?_
    rw [hflash, hfuses, congrArg State.job hgo]

theorem After.unwritten_congr {w v : Committed} (h : v.tables = w.tables) (after : After) :
    after.unwritten v = after.unwritten w := by
  cases after <;> simp only [After.unwritten, unrecorded, h]

/-- A failed program of an entry in the last position of a catalogue that no compaction can renew (R60, R63, R101). -/
theorem entryGivenUp (s : State) (i : Nat) (r : Request) (k timing : Nat) (task : Machine.Task) (e : Entry) (after : After)
    (rb : ReadBack) (ho : task.owner = .request i r) (hro : task.work.cat.readOnly = true)
    (hfill : task.work.cat.fill = 767)
    (hwork : Working s task (.catEntry k 767 e timing) (.catalogue ⟨[.write e], none, after⟩)) :
    ∃ t, exec (.arrayWatchdogTrip rb) s = .next t ∧ OnlyCatalogue s t k ∧
      Completes s t i r .mediaFault (after.unwritten task.work)
        { task.work with cat := { task.work.cat with fill := 768 } } task.events (task.alarms ||| 0x01) := by
  obtain ⟨t, hexec, honly, -, -, hreadOnly⟩ := hwork.entrySpent (rb := rb) (trip := true) (.inl rfl)
  refine ⟨t, hexec, honly, ?_⟩
  obtain ⟨-, hunwritten⟩ := hreadOnly (.inl hro)
  obtain ⟨owner, ⟨tables, ⟨active, fill, generation, readOnly⟩, sample, profiles, activeProfile, fuse⟩, events, alarms⟩ := task
  obtain rfl : fill = 767 := hfill
  obtain rfl : readOnly = true := hro
  have hdone := (hunwritten (.inr (Nat.le_refl 768))).1 i r ho
  rw [Task.carrying, List.append_nil] at hdone
  rw [After.unwritten_congr (v := ⟨tables, ⟨active, 767, generation, true⟩, sample, profiles, activeProfile, fuse⟩)
    (w := ⟨tables, ⟨active, 768, generation, true⟩, sample, profiles, activeProfile, fuse⟩) rfl]
  exact hdone

/-- Settles O57: the commit of an entry, its retry and its end, what it changes, and every step of a compaction. -/
theorem entryProgramCommitsOrIsRetried : Obligations.EntryProgramCommitsOrIsRetried := by
  refine ⟨structuralEntryCommits, ?retried, ?givenUp, applyEntry_changes, fun g hg => nextNumber_toNat _ hg, ?replies,
    ?background, ?queue, ?spent, ?compaction, ?former⟩
  case retried =>
    intro s k timing t0 e after rb hdev hactive _ hroom hjob
    obtain ⟨t, hexec, htask, hcomplete, hbecomes, hothers⟩ := entryRetried s k timing t0 e after rb hdev hactive hroom hjob
    rw [Task.carrying, List.append_nil] at htask
    exact ⟨t, hexec, htask, hcomplete, hbecomes, hothers⟩
  case givenUp =>
    intro s i r k timing task e after rb ho _ hro hfill hwork
    exact entryGivenUp s i r k timing task e after rb ho hro hfill hwork
  case replies =>
    intro s i r task k pos timing e after hwork ho
    refine hwork.entryEnds _ fun u hu => ?_
    have hdone := State.afterWriter_done (show ArraysLeft s u by rw [hu]) hwork.1 (task.wrote ⟨s.tick, s.timeUnset⟩ e)
      (after.counted e)
    refine ⟨?_, ?_, ?_⟩
    · rintro p rfl
      rw [After.counted_eq (after := .reply p) (fun _ _ => nofun)] at hdone ⊢
      exact hdone i r ho
    · rintro p rfl
      rw [After.counted_eq (after := .formatReply p) (fun _ _ => nofun)] at hdone ⊢
      exact hdone i r ho
    · rintro code p rfl
      rw [After.counted_eq (after := .option code p) (fun _ _ => nofun)] at hdone ⊢
      exact hdone i r ho
  case background =>
    intro s task k pos timing e hwork ho
    refine hwork.entryEnds _ fun u hu => ?_
    have hdone := State.afterWriter_done (show ArraysLeft s u by rw [hu]) hwork.1 (task.wrote ⟨s.tick, s.timeUnset⟩ e)
      (After.counted .backgroundEnd e)
    rw [After.counted_eq (after := .backgroundEnd) (fun _ _ => nofun)] at hdone ⊢
    exact hdone ho
  case queue =>
    intro s task k pos timing e rest after hwork
    obtain ⟨t, hexec, -, -, hends⟩ := hwork.entryWritten
    refine ⟨t, hexec, ?_⟩
    exact hends
  case spent =>
    intro s task k pos timing e rest after rb trip hfails hwork
    obtain ⟨t, hexec, honly, -, hnext⟩ := hwork.entrySpent hfails
    exact ⟨t, hexec, honly, hnext⟩
  case compaction =>
    intro s task op k ks bad step e rest after rb trip hwork hop
    obtain ⟨t, hexec, honly, hsegs, herased, hpage, hmarked, hnext, hlast⟩ :=
      compactionOperationEnds s task op k ks bad step e rest after rb trip hwork hop
    refine ⟨t, hexec, honly, herased, hpage, hmarked, hnext, hlast, ?_⟩
    rintro rfl hk
    rw [hsegs]
    exact hop.land_target hk
  case former =>
    intro s task j timing rest after rb trip hwork
    exact hwork.formerErased rb trip

end Sys2Proof.Machine
end

section
/-! Background reclaim, and O59 (R55, R56, R57, R58). -/

namespace Sys2Proof.Machine

/-! ### A background operation begins or pauses -/

/-- The state in which a background operation begins: GUARD# looked at, and a free value drawn where the device chooses. -/
def State.glanced (s : State) (guard : Bool) (draws : Nat) : State := { s with guardHigh := guard, freeDraws := draws }

/-- A background operation has begun with this working copy and these events: the erase of segment `d`, or the pause with
what its refresh did (R36, R41, R58). -/
def ErasesOrPauses (s t : State) (d draws : Nat) (c : Committed) (evs : List Raised) : Prop :=
  (c.permits = true →
    t.job = some ⟨⟨.background, c, evs, 0⟩, .erase d (c.profile c.activeProfile).eraseClass, .backgroundErase d⟩ ∧
    Becomes s t { s with job := t.job, guardHigh := t.guardHigh, freeDraws := draws, alertLow := t.alertLow }) ∧
  (c.permits = false → Becomes s t { ({ s with committed := c }.recordAll evs).comparePool with
    reclaimPaused := true, reconsider := false, guardHigh := t.guardHigh, freeDraws := draws, alertLow := t.alertLow })

section Begins

variable {s : State} {guard : Bool} {draws : Nat} {c : Committed} {evs : List Raised}

theorem State.endBackground_eq (hdev : s.dev = .running) (hjob : s.job = none)
    (hperiod : c.tables.settings.tickPeriod = s.committed.tables.settings.tickPeriod) :
    (s.glanced guard draws).endBackground ⟨.background, c, evs, 0⟩ true =
      { ({ s with committed := c }.recordAll evs).comparePool with
        reclaimPaused := true, reconsider := false, guardHigh := guard, freeDraws := draws } := by
  have hcommit := State.commit_running (s.glanced guard draws) ⟨.background, c, evs, 0⟩ hdev
  obtain ⟨a, ha⟩ : ∃ a, ({ s with
      guardHigh := guard
      freeDraws := draws
      committed := c
      job := none
      alarms := s.alarms ||| 0
      tickPeriod :=
        if c.tables.settings.tickPeriod = s.committed.tables.settings.tickPeriod then s.tickPeriod
        else c.tables.settings.tickPeriod.toNat
      reconsider := s.reconsider || (s.reclaimPaused && (c.activeProfile != s.committed.activeProfile ||
        (c.permits && !s.committed.permits))) } : State) = a := ⟨_, rfl⟩
  replace hcommit : (s.glanced guard draws).commit ⟨.background, c, evs, 0⟩ = (a.recordAll evs).comparePool :=
    ha ▸ hcommit
  obtain ⟨q1, q2, q3, q4, q5⟩ := State.recordAll_comparePool_congr (s := a) (u := { s with committed := c }) evs
    (by rw [← ha]) (by rw [← ha]) (by rw [← ha]) (by rw [← ha]) (by rw [← ha]) (by rw [← ha]) (by rw [← ha])
  have hframe := State.recordAll_comparePool_frame a evs
  have hframe' := State.recordAll_comparePool_frame { s with committed := c } evs
  rw [q1, q2, q3, q4, q5] at hframe
  rw [State.endBackground, hcommit]
  generalize (a.recordAll evs).comparePool = x at hframe ⊢
  generalize (State.recordAll { s with committed := c } evs).comparePool = y at hframe hframe' ⊢
  rw [hframe, hframe', ← ha]
  dsimp only
  rw [if_pos hperiod, hjob, show s.alarms ||| (0 : BitVec 6) = s.alarms from BitVec.or_zero]

/-- A background operation behind its refresh (R58). -/
theorem State.backgroundRefreshed_erasesOrPauses (hdev : s.dev = .running) (hjob : s.job = none) {d : Nat} {rest : List Nat}
    (hdirty : c.tables.dirty = d :: rest)
    (hperiod : c.tables.settings.tickPeriod = s.committed.tables.settings.tickPeriod) :
    ErasesOrPauses s ((s.glanced guard draws).backgroundRefreshed ⟨.background, c, evs, 0⟩).settle d draws c evs := by
  have hcases : (s.glanced guard draws).backgroundRefreshed ⟨.background, c, evs, 0⟩ =
      if c.permits then (s.glanced guard draws).begin ⟨.background, c, evs, 0⟩
        (.erase d (c.profile c.activeProfile).eraseClass) (.backgroundErase d)
      else (s.glanced guard draws).endBackground ⟨.background, c, evs, 0⟩ true := by
    rw [State.backgroundRefreshed]
    dsimp only
    rw [hdirty]
    rfl
  rw [hcases]
  refine ⟨fun hpermits => ?_, fun hpermits => ?_⟩
  · rw [if_pos hpermits]
    exact ⟨rfl, rfl, fun _ => rfl⟩
  · rw [hpermits, if_neg Bool.false_ne_true, State.endBackground_eq hdev hjob hperiod]
    refine ⟨rfl, fun a => ?_⟩
    rw [State.recordAll_comparePool_frame]
    rfl

end Begins

/-- Without a free value drawn. -/
theorem ErasesOrPauses.undrawn {s t : State} {d : Nat} {c : Committed} {evs : List Raised}
    (h : ErasesOrPauses s t d s.freeDraws c evs) :
    (c.permits = true →
      t.job = some ⟨⟨.background, c, evs, 0⟩, .erase d (c.profile c.activeProfile).eraseClass, .backgroundErase d⟩ ∧
      Becomes s t { s with job := t.job, guardHigh := t.guardHigh, alertLow := t.alertLow }) ∧
    (c.permits = false → Becomes s t { ({ s with committed := c }.recordAll evs).comparePool with
      reclaimPaused := true, reconsider := false, guardHigh := t.guardHigh, alertLow := t.alertLow }) := by
  obtain ⟨herases, hpauses⟩ := h
  refine ⟨herases, fun hpermits => ?_⟩
  obtain ⟨ht, hreads⟩ := hpauses hpermits
  refine ⟨?_, hreads⟩
  have hdraws : ({ s with committed := c }.recordAll evs).comparePool.freeDraws = s.freeDraws := by
    rw [State.recordAll_comparePool_frame]
  generalize (State.recordAll { s with committed := c } evs).comparePool = x at hdraws ht ⊢
  rw [← hdraws] at ht
  exact ht

/-- With the free value it drew. -/
theorem ErasesOrPauses.drawn {s t : State} {d draws : Nat} {c : Committed} {evs : List Raised}
    (h : ErasesOrPauses s t d draws c evs) : t.freeDraws = draws ∧
    (c.permits = true →
      t.job = some ⟨⟨.background, c, evs, 0⟩, .erase d (c.profile c.activeProfile).eraseClass, .backgroundErase d⟩ ∧
      Becomes s t { s with job := t.job, guardHigh := t.guardHigh, freeDraws := t.freeDraws, alertLow := t.alertLow }) ∧
    (c.permits = false → Becomes s t { ({ s with committed := c }.recordAll evs).comparePool with
      reclaimPaused := true, reconsider := false, guardHigh := t.guardHigh, freeDraws := t.freeDraws,
      alertLow := t.alertLow }) := by
  obtain ⟨herases, hpauses⟩ := h
  have hdraws : t.freeDraws = draws := by
    cases hpermits : c.permits
    · exact congrArg State.freeDraws (hpauses hpermits).1
    · exact congrArg State.freeDraws (herases hpermits).2.1
  rw [hdraws]
  exact ⟨rfl, herases, hpauses⟩

/-! ### When reclaim may begin -/

theorem EngineIdle.mayReclaim {s : State} (h : EngineIdle s) (hr : s.resetLow = false) (hdev : s.dev = .running)
    (hsleep : s.sleepPending = false) (hro : s.committed.cat.readOnly = false) (hdirty : s.committed.tables.dirty ≠ [])
    {guard : Bool} {draws : Nat} : (s.glanced guard draws).mayReclaim = true := by
  obtain ⟨hjob, hready, hcontexts⟩ := h
  have hexecuting : s.contexts.any Context.isExecuting = false := by
    rw [List.any_eq_false]
    exact fun c hc => by rw [(hcontexts c hc).2]; exact Bool.false_ne_true
  have houtstanding : anyOutstanding s.contexts = false := by
    rw [anyOutstanding, List.any_eq_false]
    exact fun c hc => by rw [(hcontexts c hc).1, (hcontexts c hc).2]; exact Bool.false_ne_true
  simp [State.glanced, State.mayReclaim, State.idleMedia, hjob, hready, hr, hdev, hsleep, hro, hdirty, hexecuting, houtstanding]

theorem State.observe_eq {s : State} (hr : s.resetLow = false) (hdev : s.dev ≠ .deepSleep) (env : Env) :
    s.observe env = s.glanced env.guardHigh s.freeDraws := by
  simp [State.glanced, State.observe, State.linkDecodes, hr, hdev]

/-- The command that begins reclaim, or looks at a paused one again, under a due sample (R58). -/
theorem exec_reclaim_due {s : State} (env : Env) (h : EngineIdle s) (hr : s.resetLow = false) (hdev : s.dev = .running)
    (hsleep : s.sleepPending = false) (hro : s.committed.cat.readOnly = false) (hdirty : s.committed.tables.dirty ≠ [])
    (hdue : s.committed.due = true) :
    exec (if s.reclaimPaused then .reclaimReconsider env else .backgroundReclaim env) s =
      .next ((s.glanced env.guardHigh s.freeDraws).startBackground true env).settle := by
  have hmay := h.mayReclaim hr hdev hsleep hro hdirty (guard := env.guardHigh) (draws := s.freeDraws)
  have hobserved := State.observe_eq hr (by rw [hdev]; exact nofun) env
  cases hpaused : s.reclaimPaused
  · have hdo : (s.glanced env.guardHigh s.freeDraws).doBackground env =
        (s.glanced env.guardHigh s.freeDraws).startBackground s.committed.due env :=
      if_pos (by rw [hmay, show (s.glanced env.guardHigh s.freeDraws).reclaimPaused = false from hpaused]; rfl)
    have hexec : exec (.backgroundReclaim env) s = .next ((s.observe env).doBackground env).settle := rfl
    rw [hobserved, hdo, hdue] at hexec
    exact hexec
  · have hdo : (s.glanced env.guardHigh s.freeDraws).doReconsider env =
        (s.glanced env.guardHigh s.freeDraws).startBackground true env :=
      (if_pos (by
        rw [hmay, show (s.glanced env.guardHigh s.freeDraws).reclaimPaused = true from hpaused,
          show (s.glanced env.guardHigh s.freeDraws).committed.due = true from hdue]
        rfl)).trans (if_pos hdue)
    have hexec : exec (.reclaimReconsider env) s = .next ((s.observe env).doReconsider env).settle := rfl
    rw [hobserved, hdo] at hexec
    exact hexec

/-- With the internal source the refresh is made at once (R58, R114, R118). -/
theorem State.startBackground_internal (P : State) (env : Env) (hsource : P.committed.activeSource = .internal) :
    P.startBackground true env = P.backgroundRefreshed ⟨.background, P.committed.sampled (dieValue env.die) .internal,
      changeOf P.committed P.stamp (P.committed.sampled (dieValue env.die) .internal).activeProfile (dieValue env.die), 0⟩ := by
  have hrefresh : P.startBackground true env = P.backgroundRefreshed ((⟨.background, P.committed, [], 0⟩ : Machine.Task).absorb
      (internalAttempt P.committed P.stamp env)) := by
    rw [State.startBackground, if_pos rfl]
    dsimp only
    rw [hsource]
  rw [hrefresh, internalAttempt, attemptSucceeds_eq]
  rfl

/-- With the external source it is an attempt on the sensor bus (R58, R114). -/
theorem State.startBackground_external (P : State) (env : Env) (hsource : P.committed.activeSource = .external) :
    P.startBackground true env = P.begin ⟨.background, P.committed, [], 0⟩ .sensor .backgroundRefresh := by
  rw [State.startBackground, if_pos rfl]
  dsimp only
  rw [hsource]

/-- Under HOST there is nothing to attempt (R113, R114). -/
theorem State.startBackground_host (P : State) (env : Env) (hsource : P.committed.activeSource = .host) :
    P.startBackground true env = P.backgroundRefreshed ⟨.background, P.committed, [], 0⟩ := by
  rw [State.startBackground, if_pos rfl]
  dsimp only
  rw [hsource]

/-! ### The end of an erase -/

/-- No listed byte of a segment is left exactly if every byte of it reads FFh (R46, R55). -/
theorem segmentCells_isEmpty_iff {m : List Host.Cell} (hform : Memory.wf m = true) (d : Nat) :
    (segmentCells m d).isEmpty = true ↔ ∀ x, d * 32768 ≤ x → x < (d + 1) * 32768 → readByte m x = 0xFF := by
  have hinside (x : Nat) : inSegment d x = true ↔ d * 32768 ≤ x ∧ x < (d + 1) * 32768 := by
    rw [inSegment, Bool.and_eq_true, decide_eq_true_eq, decide_eq_true_eq, segBase, segmentSize, Nat.succ_mul]
  rw [List.isEmpty_iff, segmentCells, List.filter_eq_nil_iff]
  refine ⟨fun hnone x hlow hhigh => ?_, fun hreads c hc hcin => ?_⟩
  · refine readByte_of_not_mem fun c hc hcx => hnone c hc ?_
    rw [hcx]
    exact (hinside x).mpr ⟨hlow, hhigh⟩
  · obtain ⟨hlow, hhigh⟩ := (hinside c.1).mp hcin
    refine ((Memory.wf_iff m).mp hform).2 c hc ?_
    rw [← readByte_of_mem hform hc]
    exact hreads c.1 hlow hhigh

/-- An erase of a data segment ends: FREE with its count one greater, or RETIRED with its reason and the alarm (R47, R55, R56,
R57). -/
theorem eraseEnds (s : State) (task : Machine.Task) (d timing : Nat) (stage : Stage) (rb : ReadBack) (trip : Bool)
    (hwork : Working s task (.erase d timing) stage) (hform : ArrayForm s) :
    let count := (task.work.tables.seg d).eraseCount
    ∃ t, exec (if trip then .arrayWatchdogTrip rb else .arrayOperationComplete rb) s = .next t ∧
      OnlyBytes s t (fun x => d * 32768 ≤ x ∧ x < (d + 1) * 32768) ∧
      let ok := trip = false ∧ ∀ x, d * 32768 ≤ x → x < (d + 1) * 32768 → readByte t.flash x = 0xFF
      let goesOn := fun after : After =>
        (ok → EntryNext s t task (.erased d (min (count + 1) 0xFFFFFF)) [] after) ∧
        (¬ ok → EntryNext s t (task.carrying task.work [] 0x01)
          (.retired d (if trip then .eraseWatchdog else .eraseVerify)) [] after)
      (stage = .backgroundErase d → goesOn .backgroundEnd) ∧
      ∀ a, stage = .forcedErase a d → goesOn (.allocate a 0) := by
  refine ⟨_, hwork.exec_arrayEnd rfl rb trip, ?_⟩
  have hu := s.land_arraysLeft (.erase d timing) rb trip
  have honly : OnlyBytes s (s.land (.erase d timing) rb trip) (fun x => d * 32768 ≤ x ∧ x < (d + 1) * 32768) :=
    s.land_onlyTarget (.erase d timing) rb trip
  have hform' := State.land_arrayForm hform (.erase d timing) rb trip
  have hd := hwork.1
  generalize s.land (.erase d timing) rb trip = u at hu honly hform' ⊢
  obtain ⟨hflash', hsegs', hfuses'⟩ := State.stageEnds_arrays u ⟨task, .erase d timing, stage⟩
    (u.verified (.erase d timing) rb && !trip) trip
  refine ⟨⟨hsegs'.trans honly.1, hfuses'.trans honly.2.1, fun x hx => by rw [hflash']; exact honly.2.2 x hx⟩, ?_⟩
  dsimp only
  have hok : (u.verified (.erase d timing) rb && !trip) = true ↔
      trip = false ∧ ∀ x, d * 32768 ≤ x → x < (d + 1) * 32768 → readByte u.flash x = 0xFF := by
    rw [Bool.and_eq_true, Bool.not_eq_true', and_comm]
    exact and_congr_right' (segmentCells_isEmpty_iff hform' d)
  rw [hflash', ← hok]
  clear hflash' hsegs' hfuses' hok
  generalize (u.verified (.erase d timing) rb && !trip) = ok
  have hentry (after : After) :
      (ok = true → EntryNext s (u.writeEntry (task.latchUnless ok) (eraseEntry task.work.tables d ok trip) after).settle task
        (.erased d (min ((task.work.tables.seg d).eraseCount + 1) 0xFFFFFF)) [] after) ∧
      (¬ ok = true → EntryNext s (u.writeEntry (task.latchUnless ok) (eraseEntry task.work.tables d ok trip) after).settle
        (task.carrying task.work [] 0x01) (.retired d (if trip then .eraseWatchdog else .eraseVerify)) [] after) := by
    refine ⟨?_, fun hfails => ?_⟩
    · rintro rfl
      exact State.writeEntry_next hu hd task _ after
    · obtain rfl := Bool.eq_false_of_not_eq_true hfails
      rw [Task.carrying, List.append_nil]
      exact State.writeEntry_next hu hd (task.latch alarmMediaFault) _ after
  refine ⟨?_, fun a => ?_⟩
  · rintro rfl
    exact hentry .backgroundEnd
  · rintro rfl
    exact hentry (.allocate a 0)

/-- Settles O59: reclaim begun, paused or looked at again, and the end of an erase. -/
theorem backgroundReclaimErasesDirtyHead : Obligations.BackgroundReclaimErasesDirtyHead := by
  refine ⟨?current, ?due, ?reconsidered, ?external, eraseEnds⟩
  case current =>
    intro s env d rest hr hdev hsleep hidle hpaused hro hdue hdirty
    have hmay := hidle.mayReclaim hr hdev hsleep hro (by rw [hdirty]; exact List.cons_ne_nil d rest)
      (guard := env.guardHigh) (draws := s.freeDraws)
    have hdo : (s.glanced env.guardHigh s.freeDraws).doBackground env =
        (s.glanced env.guardHigh s.freeDraws).startBackground s.committed.due env :=
      if_pos (by rw [hmay, show (s.glanced env.guardHigh s.freeDraws).reclaimPaused = false from hpaused]; rfl)
    have hexec : exec (.backgroundReclaim env) s = .next ((s.observe env).doBackground env).settle := rfl
    rw [State.observe_eq hr (by rw [hdev]; exact nofun), hdo, hdue] at hexec
    obtain ⟨herases, hpauses⟩ := (State.backgroundRefreshed_erasesOrPauses (guard := env.guardHigh) (draws := s.freeDraws)
      (evs := []) hdev hidle.1 hdirty rfl).undrawn
    refine ⟨_, hexec, herases, fun hpermits => ?_⟩
    have ht := hpauses hpermits
    refine ⟨?_, (congrArg State.reclaimPaused ht.1).trans rfl, (congrArg State.reconsider ht.1).trans rfl, ht⟩
    refine (congrArg State.job ht.1).trans ?_
    dsimp only
    rw [State.recordAll_comparePool_frame]
    exact hidle.1
  case due =>
    intro s env d rest hr hdev hsleep hidle hro hdue hsource hdirty
    have hexec := exec_reclaim_due env hidle hr hdev hsleep hro (by rw [hdirty]; exact List.cons_ne_nil d rest) hdue
    rw [State.startBackground_internal (s.glanced env.guardHigh s.freeDraws) env hsource] at hexec
    exact ⟨_, hexec, (State.backgroundRefreshed_erasesOrPauses (guard := env.guardHigh) (draws := s.freeDraws) hdev hidle.1
      (c := s.committed.sampled (dieValue env.die) .internal) hdirty rfl).undrawn⟩
  case reconsidered =>
    intro s env d rest hr hdev hsleep hidle hpaused hreconsider hro hdue hdirty
    have hmay := hidle.mayReclaim hr hdev hsleep hro (by rw [hdirty]; exact List.cons_ne_nil d rest)
      (guard := env.guardHigh) (draws := s.freeDraws)
    have hdo : (s.glanced env.guardHigh s.freeDraws).doReconsider env =
        (s.glanced env.guardHigh (s.freeDraws + 1)).startBackground (Config.reconsiderRefreshes s.freeDraws) env :=
      (if_pos (by
        rw [hmay, show (s.glanced env.guardHigh s.freeDraws).reclaimPaused = true from hpaused,
          show (s.glanced env.guardHigh s.freeDraws).reconsider = true from hreconsider, Bool.or_true]
        rfl)).trans (if_neg (by
        rw [show (s.glanced env.guardHigh s.freeDraws).committed.due = false from hdue]
        exact Bool.false_ne_true))
    have hexec : exec (.reclaimReconsider env) s = .next ((s.observe env).doReconsider env).settle := rfl
    rw [State.observe_eq hr (by rw [hdev]; exact nofun), hdo] at hexec
    obtain ⟨P, hP⟩ : ∃ P, s.glanced env.guardHigh (s.freeDraws + 1) = P := ⟨_, rfl⟩
    have hbegins {c : Committed} {evs : List Raised} (hcdirty : c.tables.dirty = d :: rest)
        (hperiod : c.tables.settings.tickPeriod = s.committed.tables.settings.tickPeriod) :=
      (hP ▸ State.backgroundRefreshed_erasesOrPauses (guard := env.guardHigh) (draws := s.freeDraws + 1) hdev hidle.1 hcdirty
        hperiod : ErasesOrPauses s (P.backgroundRefreshed ⟨.background, c, evs, 0⟩).settle d (s.freeDraws + 1) c evs).drawn
    have hcommitted : P.committed = s.committed := by rw [← hP]; rfl
    have hstamp : P.stamp = ⟨s.tick, s.timeUnset⟩ := by rw [← hP]; rfl
    rw [hP] at hexec
    have hcurrent (hgoes : P.startBackground (Config.reconsiderRefreshes s.freeDraws) env =
        P.backgroundRefreshed ⟨.background, s.committed, [], 0⟩) := hgoes ▸ hexec
    cases hrefresh : Config.reconsiderRefreshes s.freeDraws
    case false =>
      obtain ⟨hdraws, hends⟩ := hbegins (c := s.committed) (evs := []) hdirty rfl
      exact ⟨_, hcurrent (by rw [hrefresh, ← hcommitted]; rfl), hdraws, .inr ⟨_, [], .inl ⟨rfl, rfl⟩, hends⟩⟩
    case true =>
      rw [hrefresh] at hexec
      cases hsource : s.committed.activeSource
      case external =>
        rw [State.startBackground_external P env (by rw [hcommitted, hsource]), hcommitted] at hexec
        refine ⟨_, hexec, ?_, .inl ⟨hsource, rfl, ?_⟩⟩
        · rw [← hP]; rfl
        · rw [← hP]; exact ⟨rfl, fun _ => rfl⟩
      case internal =>
        rw [State.startBackground_internal P env (by rw [hcommitted, hsource]), hcommitted, hstamp] at hexec
        obtain ⟨hdraws, hends⟩ := hbegins (c := s.committed.sampled (dieValue env.die) .internal) hdirty rfl
        exact ⟨_, hexec, hdraws, .inr ⟨_, _, .inr ⟨hsource, rfl, rfl⟩, hends⟩⟩
      case host =>
        obtain ⟨hdraws, hends⟩ := hbegins (c := s.committed) (evs := []) hdirty rfl
        refine ⟨_, hcurrent ?_, hdraws, .inr ⟨_, [], .inl ⟨rfl, rfl⟩, hends⟩⟩
        rw [hrefresh, State.startBackground_host P env (by rw [hcommitted, hsource]), hcommitted]
  case external =>
    intro s env hr hdev hsleep hidle hro hdue hsource hdirty
    have hexec := exec_reclaim_due env hidle hr hdev hsleep hro hdirty hdue
    rw [State.startBackground_external (s.glanced env.guardHigh s.freeDraws) env hsource] at hexec
    exact ⟨_, hexec, rfl, rfl, fun _ => rfl⟩

end Sys2Proof.Machine
end

section
/-! The ends of sensor attempts, and O60 (R115 to R120). -/

namespace Sys2Proof.Machine

/-! ### What an attempt does on the bus, and how it ends -/

theorem byteOf_high (w : Half) : byteOf (w.toNat / 256) = w.extractLsb' 8 8 := by
  apply BitVec.eq_of_toNat_eq
  simp [byteOf, Nat.shiftRight_eq_div_pow]

theorem byteOf_low (w : Half) : byteOf w.toNat = w.extractLsb' 0 8 := by
  apply BitVec.eq_of_toNat_eq
  simp [byteOf]

/-- The end of a run on which a word was read (R117). -/
def wordEnd (g : Settings) (w : Half) : AttemptEnd :=
  if -220 ≤ busValue g w ∧ busValue g w ≤ 600 then .value (BitVec.ofInt 16 (busValue g w))
  else .failure .implausible w.toNat

/-- The acts on the bus and the end of an attempt, by what the sensor does: TSDA held low, an address or a pointer not
acknowledged, or a word read (R115, R116, R117). -/
theorem attempt_cases (g : Settings) (run : BusRun) {p : List BusAct → AttemptEnd → Prop}
    (h : p (busActs g run) (attemptEnd g run)) :
    (10 < run.sdaHighAfter → p (busRecovery 9 ++ ([.release] : List BusAct)) (.failure .busStuck 0)) ∧
    (run.sdaHighAfter ≤ 10 → run.ackWrite = false →
      p (busRecovery run.sdaHighAfter ++ ([.start, .sent (busWriteByte g) false, .stop, .release] : List BusAct))
        (.failure .addressNack 0)) ∧
    (run.sdaHighAfter ≤ 10 → run.ackWrite = true → run.ackPointer = false →
      p (busRecovery run.sdaHighAfter ++
        ([.start, .sent (busWriteByte g) true, .sent (busPointerByte g) false, .stop, .release] : List BusAct)) (.failure .dataNack 0)) ∧
    (run.sdaHighAfter ≤ 10 → run.ackWrite = true → run.ackPointer = true → run.ackRead = false →
      p (busRecovery run.sdaHighAfter ++ ([.start, .sent (busWriteByte g) true, .sent (busPointerByte g) true,
        .repeatedStart, .sent (busReadByte g) false, .stop, .release] : List BusAct)) (.failure .addressNack 0)) ∧
    (run.sdaHighAfter ≤ 10 → run.ackWrite = true → run.ackPointer = true → run.ackRead = true →
      p (busRecovery run.sdaHighAfter ++ busRun g run.word) (wordEnd g run.word)) := by
  rw [busActs, attemptEnd] at h
  dsimp only at h
  refine ⟨fun hstuck => ?stuck, fun hhigh hw => ?address, fun hhigh hw hp => ?pointer, fun hhigh hw hp hr => ?read,
    fun hhigh hw hp hr => ?word⟩
  case stuck =>
    rw [if_pos hstuck, if_pos hstuck] at h
    have hrecovery : recoveryActs run.sdaHighAfter = busRecovery 9 := by
      rw [recoveryActs, busRecovery, if_neg (by omega), if_neg (by omega), Nat.min_eq_right (by omega), Nat.min_self]
    rwa [hrecovery, List.append_nil] at h
  all_goals rw [if_neg (Nat.not_lt.mpr hhigh), if_neg (Nat.not_lt.mpr hhigh), hw] at h
  case address =>
    rw [List.append_assoc] at h
    exact h
  all_goals rw [hp] at h
  case pointer =>
    rw [List.append_assoc] at h
    exact h
  all_goals rw [hr] at h
  case read =>
    rw [List.append_assoc] at h
    exact h
  case word =>
    rw [List.append_assoc, byteOf_high, byteOf_low] at h
    have hend : wordEnd g run.word = if plausible (convertWord g.sensorFormat run.word) = true then
        .value (tempOf (convertWord g.sensorFormat run.word)) else .failure .implausible run.word.toNat := by
      have hplausible : plausible (convertWord g.sensorFormat run.word) = true ↔
          -220 ≤ busValue g run.word ∧ busValue g run.word ≤ 600 := by
        rw [plausible, Bool.and_eq_true, decide_eq_true_eq, decide_eq_true_eq]
        rfl
      exact (if_congr hplausible rfl rfl).symm
    rw [hend]
    exact h

/-! ### An attempt in progress for a task -/

/-- The state once an attempt's run has been seen: GUARD# looked at, and the acts on the bus (R115). -/
def State.attempted (s : State) (guard : Bool) (acts : List BusAct) : State := { s with guardHigh := guard, sensorLog := acts }

section Attempt

variable {s : State} {task : Machine.Task} {stage : Stage} {i : Nat} {r : Request} (env : Env)

theorem State.attempting_of_job {P : State} (hjob : P.job = some ⟨task, .sensor, stage⟩) : P.attempting = true := by
  rw [State.attempting, hjob]
  rfl

theorem State.attemptEnds_of_job {P : State} {j : Job} (hjob : P.job = some j) (e : AttemptEnd) :
    P.attemptEnds e env = P.sensorEnds j e env := by
  rw [State.attemptEnds, hjob]

theorem exec_sensorAttempt_of_job (hdev : s.dev = .running) (hr : s.resetLow = false)
    (hjob : s.job = some ⟨task, .sensor, stage⟩) (run : BusRun) : exec (.sensorAttempt run env) s =
      .next ((s.attempted env.guardHigh (busActs task.work.tables.settings run)).sensorEnds ⟨task, .sensor, stage⟩
        (attemptEnd task.work.tables.settings run) env).settle := by
  have hobserved := State.observe_eq hr (by rw [hdev]; exact nofun) env
  have hexec : exec (.sensorAttempt run env) s = .next ((s.observe env).doSensorAttempt run env).settle := rfl
  have hjob' : (s.glanced env.guardHigh s.freeDraws).job = some ⟨task, .sensor, stage⟩ := hjob
  have hsettings : (s.glanced env.guardHigh s.freeDraws).attemptSettings = task.work.tables.settings := by
    rw [State.attemptSettings, hjob']
  rw [hobserved, State.doSensorAttempt, if_pos (State.attempting_of_job hjob'), hsettings] at hexec
  exact hexec.trans (congrArg (fun v => Host.Outcome.next v.settle) (State.attemptEnds_of_job env
    (P := s.attempted env.guardHigh (busActs task.work.tables.settings run)) hjob _))

theorem exec_stretchTimeout_of_job (hdev : s.dev = .running) (hr : s.resetLow = false)
    (hjob : s.job = some ⟨task, .sensor, stage⟩) : exec (.stretchTimeout env) s =
      .next ((s.attempted env.guardHigh [.release]).sensorEnds ⟨task, .sensor, stage⟩ (.failure .stretchTimeout 0) env).settle := by
  have hobserved := State.observe_eq hr (by rw [hdev]; exact nofun) env
  have hexec : exec (.stretchTimeout env) s = .next ((s.observe env).doStretchTimeout env).settle := rfl
  have hjob' : (s.glanced env.guardHigh s.freeDraws).job = some ⟨task, .sensor, stage⟩ := hjob
  rw [hobserved, State.doStretchTimeout, if_pos (State.attempting_of_job hjob')] at hexec
  exact hexec.trans (congrArg (fun v => Host.Outcome.next v.settle) (State.attemptEnds_of_job env
    (P := s.attempted env.guardHigh [.release]) hjob _))

/-- What follows an attempt leaves the link, the time, the array and the fuse store alone (R115). -/
theorem State.sensorEnds_frame (s : State) (guard : Bool) (acts : List BusAct) (j : Job) (e : AttemptEnd) :
    let t := ((s.attempted guard acts).sensorEnds j e env).settle
    t.sensorLog = acts ∧ t.guardHigh = guard ∧ t.catSegs = s.catSegs ∧ t.fuses = s.fuses ∧ t.tick = s.tick ∧ t.txn = s.txn ∧
      t.sdo = s.sdo ∧ ∀ a, readByte t.flash a = readByte s.flash a := by
  have h := ((s.attempted guard acts).sensorEnds_workFrame j e env).only
  rw [State.settle, h]
  exact ⟨rfl, rfl, rfl, rfl, rfl, rfl, rfl, fun _ => rfl⟩

theorem applyAttempt_value (c : Committed) (now : Stamp) (v : Half) : applyAttempt c now (.value v) env =
    (c.sampled v .external, changeOf c now (c.sampled v .external).activeProfile v) := attemptSucceeds_eq c now v .external

theorem applyAttempt_failure (c : Committed) (now : Stamp) (reason : SensorReason) (raw : Nat) :
    applyAttempt c now (.failure reason raw) env = failureOf c now env.die (byteOf reason.code) raw :=
  attemptFails_eq c now reason raw env

/-- A SAMPLE_TEMPERATURE whose attempt read a value (R119, R124, R128). -/
theorem State.sampling_value (hdev : s.dev = .running) (ho : task.owner = .request i r) (guard : Bool) (acts : List BusAct)
    (v : Half) :
    let c := task.work.sampled v .external
    Completes s ((s.attempted guard acts).sensorEnds ⟨task, .sensor, .sampling⟩ (.value v) env).settle i r .ok
      (samplePayload c 0x00 0x00) c (task.events ++ changeOf task.work ⟨s.tick, s.timeUnset⟩ c.activeProfile v) task.alarms := by
  have hdone := State.complete_completes (s := s) (u := s.attempted guard acts) rfl
    (t := task.absorb (task.work.sampled v .external,
      changeOf task.work ⟨s.tick, s.timeUnset⟩ (task.work.sampled v .external).activeProfile v)) ho hdev .ok
    (sampleReply (task.work.sampled v .external) .external 0)
  rw [State.sensorEnds, show (s.attempted guard acts).stamp = ⟨s.tick, s.timeUnset⟩ from rfl, applyAttempt_value]
  rw [sampleReply_eq] at hdone
  dsimp only
  rw [sampleReply_eq]
  exact hdone

/-- A SAMPLE_TEMPERATURE whose attempt failed (R119, R120, R128). -/
theorem State.sampling_failure (hdev : s.dev = .running) (ho : task.owner = .request i r) (guard : Bool) (acts : List BusAct)
    (reason : SensorReason) (raw : Nat) :
    AttemptFails s ((s.attempted guard acts).sensorEnds ⟨task, .sensor, .sampling⟩ (.failure reason raw) env).settle i r task
      env.die (byteOf reason.code) raw := by
  obtain ⟨o, ho'⟩ : ∃ o, failureOf task.work ⟨s.tick, s.timeUnset⟩ env.die (byteOf reason.code) raw = o := ⟨_, rfl⟩
  have hdone := State.complete_completes (s := s) (u := s.attempted guard acts) rfl (t := task.absorb o) ho hdev .sensorFailed
    (sampleReply o.1 .external reason.code)
  rw [AttemptFails, ho', State.sensorEnds, show (s.attempted guard acts).stamp = ⟨s.tick, s.timeUnset⟩ from rfl,
    applyAttempt_failure, ho']
  dsimp only
  rw [sampleReply_eq] at hdone
  rw [show (task.absorb o).work = o.1 from rfl, sampleReply_eq]
  exact hdone

theorem Task.absorb_eq (t : Machine.Task) (o : Committed × List Raised) : t.absorb o = t.carrying o.1 o.2 0 := by
  rw [Task.absorb, Task.carrying, show t.alarms ||| (0 : BitVec 6) = t.alarms from BitVec.or_zero]

/-- The refresh of step 6 or of a background operation ends with what the attempt left (R39, R58). -/
theorem State.sensorEnds_refreshEnds (hdev : s.dev = .running) (guard : Bool) (acts : List BusAct) (e : AttemptEnd) :
    let o := applyAttempt task.work ⟨s.tick, s.timeUnset⟩ e env
    RefreshEnds s ((s.attempted guard acts).sensorEnds ⟨task, .sensor, stage⟩ e env).settle task stage o.1 o.2 := by
  dsimp only
  obtain ⟨o, ho⟩ : ∃ o, applyAttempt task.work ⟨s.tick, s.timeUnset⟩ e env = o := ⟨_, rfl⟩
  obtain ⟨hlog, hguard, -⟩ := s.sensorEnds_frame env guard acts ⟨task, .sensor, stage⟩ e
  rw [RefreshEnds, hlog, hguard, ho]
  have harrays : ArraysLeft (s.attempted guard acts) (s.attempted guard acts) := rfl
  refine ⟨?_, ?_⟩
  · rintro i r rfl howner
    have hrequest : (task.carrying o.1 o.2 0).request? = some r := by
      rw [Task.request?, show (task.carrying o.1 o.2 0).owner = .request i r from howner]
    have hends : (s.attempted guard acts).sensorEnds ⟨task, .sensor, .refresh⟩ e env =
        (s.attempted guard acts).afterRefresh (task.carrying o.1 o.2 0) r := by
      rw [State.sensorEnds.eq_def, show (s.attempted guard acts).stamp = ⟨s.tick, s.timeUnset⟩ from rfl]
      dsimp only
      rw [ho, Task.absorb_eq, hrequest]
    rw [hends]
    exact State.afterRefresh_stepSix harrays hdev task howner o.1 o.2
  · rintro rfl
    have hends : (s.attempted guard acts).sensorEnds ⟨task, .sensor, .backgroundRefresh⟩ e env =
        (s.attempted guard acts).backgroundRefreshed (task.carrying o.1 o.2 0) := by
      rw [State.sensorEnds.eq_def, show (s.attempted guard acts).stamp = ⟨s.tick, s.timeUnset⟩ from rfl]
      dsimp only
      rw [ho, Task.absorb_eq]
    rw [hends]
    exact State.backgroundRefreshed_next harrays hdev task o.1 o.2

end Attempt

/-! ### The mount's attempt -/

section Mount

variable {s : State} (env : Env)

/-- In the mount an attempt's end is the mount's first sample (R114, R119, R173; log 45). -/
theorem State.mountAttempt (hdev : s.dev = .mounting) (hr : s.resetLow = false) (hsampled : s.mountSampled = false)
    (hjob : s.job = none) (hsample : s.committed.sample = Sample.initial)
    (hsource : s.committed.tables.settings.sensorSource = 0x0000) :
    (∀ run, exec (.sensorAttempt run env) s =
      .next ((s.attempted env.guardHigh (busActs s.committed.tables.settings run)).absorbMount
        (applyAttempt s.committed ⟨s.tick, s.timeUnset⟩ (attemptEnd s.committed.tables.settings run) env)).settle) ∧
    exec (.stretchTimeout env) s = .next ((s.attempted env.guardHigh [.release]).absorbMount
      (applyAttempt s.committed ⟨s.tick, s.timeUnset⟩ (.failure .stretchTimeout 0) env)).settle := by
  have hobserved := State.observe_eq hr (by rw [hdev]; exact nofun) env
  have hsource' : s.committed.activeSource = .external := by
    rw [Committed.activeSource, hsample, Settings.source, hsource]
    rfl
  have hjob' : (s.glanced env.guardHigh s.freeDraws).job = none := hjob
  have hattempting : (s.glanced env.guardHigh s.freeDraws).attempting = true := by
    rw [State.attempting, hjob']
    simp [State.mountAwaitsSensor, State.glanced, hdev, hr, hsampled, hsource']
  have hsettings : (s.glanced env.guardHigh s.freeDraws).attemptSettings = s.committed.tables.settings := by
    rw [State.attemptSettings, hjob']
    rfl
  have hends (acts : List BusAct) (e : AttemptEnd) : (s.attempted env.guardHigh acts).attemptEnds e env =
      (s.attempted env.guardHigh acts).absorbMount (applyAttempt s.committed ⟨s.tick, s.timeUnset⟩ e env) := by
    rw [State.attemptEnds, show (s.attempted env.guardHigh acts).job = none from hjob]
    rfl
  refine ⟨fun run => ?_, ?_⟩
  · have hexec : exec (.sensorAttempt run env) s = .next ((s.observe env).doSensorAttempt run env).settle := rfl
    rw [hobserved, State.doSensorAttempt, if_pos hattempting, hsettings] at hexec
    exact hexec.trans (congrArg (fun v => Host.Outcome.next v.settle) (hends _ _))
  · have hexec : exec (.stretchTimeout env) s = .next ((s.observe env).doStretchTimeout env).settle := rfl
    rw [hobserved, State.doStretchTimeout, if_pos hattempting] at hexec
    exact hexec.trans (congrArg (fun v => Host.Outcome.next v.settle) (hends _ _))

end Mount

end Sys2Proof.Machine
end

section
/-! O60: what each end of an attempt comes to. -/

namespace Sys2Proof.Machine

section Mount

variable {s : State}

/-- What the mount's first sample leaves. -/
theorem State.absorbMount_fields (s : State) (guard : Bool) (acts : List BusAct) (o : Committed × List Raised) :
    let t := ((s.attempted guard acts).absorbMount o).settle
    t.mountSampled = true ∧ t.sensorLog = acts ∧ t.committed = o.1 ∧ t.events = (s.recordAll o.2).events ∧ t.dev = s.dev ∧
      t.contexts = s.contexts ∧ t.catSegs = s.catSegs ∧ t.fuses = s.fuses ∧ t.tick = s.tick ∧ t.txn = s.txn ∧ t.sdo = s.sdo ∧
      ∀ a, readByte t.flash a = readByte s.flash a := by
  obtain ⟨P, hP⟩ : ∃ P, ({ s.attempted guard acts with committed := o.1, mountSampled := true } : State) = P := ⟨_, rfl⟩
  have hframe := State.recordAll_frame o.2 P
  obtain ⟨hevents, -, -⟩ := State.recordAll_congr o.2 (s := P) (u := s) (by rw [← hP]; rfl) (by rw [← hP]; rfl)
    (by rw [← hP]; rfl)
  have habsorbed : (s.attempted guard acts).absorbMount o = P.recordAll o.2 := hP ▸ rfl
  rw [hevents] at hframe
  rw [habsorbed]
  generalize P.recordAll o.2 = x at hframe ⊢
  rw [hframe, ← hP]
  exact ⟨rfl, rfl, rfl, rfl, rfl, rfl, rfl, rfl, rfl, rfl, rfl, fun _ => rfl⟩

end Mount

theorem wordEnd_value {g : Settings} {w : Half} (hlow : -220 ≤ busValue g w) (hhigh : busValue g w ≤ 600) :
    wordEnd g w = .value (BitVec.ofInt 16 (busValue g w)) := if_pos ⟨hlow, hhigh⟩

theorem wordEnd_implausible {g : Settings} {w : Half} (h : ¬ (-220 ≤ busValue g w ∧ busValue g w ≤ 600)) :
    wordEnd g w = .failure .implausible w.toNat := if_neg h

/-- Settles O60: a SAMPLE_TEMPERATURE's attempt, a refresh's, and the mount's. -/
theorem sensorAttemptsEnd : Obligations.SensorAttemptsEnd := by
  refine ⟨?value, ?failures, ?stretch, ?refresh, ?mount⟩
  case value =>
    intro s i r w evs al n word env hdev hr hjob
    dsimp only
    intro hn _ hlow hhigh
    have hexec := exec_sensorAttempt_of_job env hdev hr hjob ⟨n, true, true, true, word⟩
    obtain ⟨-, -, -, -, hread⟩ := attempt_cases w.tables.settings ⟨n, true, true, true, word⟩
      (p := fun acts e => exec (.sensorAttempt ⟨n, true, true, true, word⟩ env) s =
        .next ((s.attempted env.guardHigh acts).sensorEnds ⟨⟨.request i r, w, evs, al⟩, .sensor, .sampling⟩ e env).settle) hexec
    replace hread := hread hn rfl rfl rfl
    rw [wordEnd_value hlow hhigh] at hread
    obtain ⟨hlog, -, hframe⟩ := s.sensorEnds_frame env env.guardHigh (busRecovery n ++ busRun w.tables.settings word)
      ⟨⟨.request i r, w, evs, al⟩, .sensor, .sampling⟩ (.value (BitVec.ofInt 16 (busValue w.tables.settings word)))
    have hdone := State.sampling_value (s := s) (task := ⟨.request i r, w, evs, al⟩) env hdev rfl env.guardHigh
      (busRecovery n ++ busRun w.tables.settings word) (BitVec.ofInt 16 (busValue w.tables.settings word))
    exact ⟨_, hread, hlog, hdone, hframe⟩
  case failures =>
    intro s i r task run env hdev hr ho hjob
    have hexec := exec_sensorAttempt_of_job env hdev hr hjob run
    obtain ⟨hlog, -, hframe⟩ := s.sensorEnds_frame env env.guardHigh (busActs task.work.tables.settings run)
      ⟨task, .sensor, .sampling⟩ (attemptEnd task.work.tables.settings run)
    refine ⟨_, hexec, hframe, ?_⟩
    have hends : ∀ reason raw, attemptEnd task.work.tables.settings run = .failure reason raw →
        AttemptFails s (State.sensorEnds (s.attempted env.guardHigh (busActs task.work.tables.settings run))
          ⟨task, .sensor, .sampling⟩ (attemptEnd task.work.tables.settings run) env).settle i r task env.die
          (byteOf reason.code) raw := by
      intro reason raw he
      rw [he]
      exact State.sampling_failure env hdev ho env.guardHigh _ reason raw
    generalize (State.sensorEnds _ _ _ env).settle = t at hlog hends ⊢
    obtain ⟨hstuck, haddress, hpointer, hread, hword⟩ := attempt_cases task.work.tables.settings run
      (p := fun acts e => t.sensorLog = acts ∧ ∀ reason raw, e = .failure reason raw →
        AttemptFails s t i r task env.die (byteOf reason.code) raw) ⟨hlog, hends⟩
    refine ⟨fun h => (hstuck h).imp_right fun hf => hf _ _ rfl, fun h hw => (haddress h hw).imp_right fun hf => hf _ _ rfl,
      fun h hw hp => (hpointer h hw hp).imp_right fun hf => hf _ _ rfl,
      fun h hw hp hd => (hread h hw hp hd).imp_right fun hf => hf _ _ rfl, fun h hw hp hd _ himplausible => ?_⟩
    exact (hword h hw hp hd).imp_right fun hf => hf _ _ (wordEnd_implausible himplausible)
  case stretch =>
    intro s i r task env hdev hr ho hjob
    obtain ⟨hlog, -, hframe⟩ := s.sensorEnds_frame env env.guardHigh [.release] ⟨task, .sensor, .sampling⟩
      (.failure .stretchTimeout 0)
    have hfails := State.sampling_failure env hdev ho env.guardHigh [.release] .stretchTimeout 0
    exact ⟨_, exec_stretchTimeout_of_job env hdev hr hjob, hlog, congrArg State.job hfails.1, hfails, hframe⟩
  case refresh =>
    intro s task stage run env hdev hr hjob
    dsimp only
    have hfailure (reason : SensorReason) (raw : Nat) :=
      applyAttempt_failure env task.work ⟨s.tick, s.timeUnset⟩ reason raw
    refine ⟨?_, ?_⟩
    · obtain ⟨hlog, -, hframe⟩ := s.sensorEnds_frame env env.guardHigh [.release] ⟨task, .sensor, stage⟩
        (.failure .stretchTimeout 0)
      have hends := State.sensorEnds_refreshEnds (task := task) (stage := stage) env hdev env.guardHigh [.release]
        (.failure .stretchTimeout 0)
      rw [hfailure] at hends
      exact ⟨_, exec_stretchTimeout_of_job env hdev hr hjob, hlog, hframe, hends⟩
    · have hexec := exec_sensorAttempt_of_job env hdev hr hjob run
      obtain ⟨hlog, -, hframe⟩ := s.sensorEnds_frame env env.guardHigh (busActs task.work.tables.settings run)
        ⟨task, .sensor, stage⟩ (attemptEnd task.work.tables.settings run)
      have hends := State.sensorEnds_refreshEnds (task := task) (stage := stage) env hdev env.guardHigh
        (busActs task.work.tables.settings run) (attemptEnd task.work.tables.settings run)
      refine ⟨_, hexec, hframe, ?_⟩
      generalize (State.sensorEnds _ _ _ env).settle = t at hlog hends ⊢
      obtain ⟨hstuck, haddress, hpointer, hread, hword⟩ := attempt_cases task.work.tables.settings run
        (p := fun acts e => t.sensorLog = acts ∧ RefreshEnds s t task stage
          (applyAttempt task.work ⟨s.tick, s.timeUnset⟩ e env).1 (applyAttempt task.work ⟨s.tick, s.timeUnset⟩ e env).2)
        ⟨hlog, hends⟩
      simp only [hfailure] at hstuck haddress hpointer hread
      refine ⟨hstuck, haddress, hpointer, hread, fun h hw hp hd _ => ?_⟩
      obtain ⟨hacts, hrefresh⟩ := hword h hw hp hd
      refine ⟨hacts, fun himplausible => ?_, fun hlow hhigh => ?_⟩
      · rw [wordEnd_implausible himplausible, hfailure] at hrefresh
        exact hrefresh
      · rw [wordEnd_value hlow hhigh, applyAttempt_value] at hrefresh
        exact hrefresh
  case mount =>
    intro s word env hdev hr hsampled hjob hsample hprofile hroom
    dsimp only
    intro hsource _
    obtain ⟨hattempt, hstretch⟩ := State.mountAttempt env hdev hr hsampled hjob hsample hsource
    refine ⟨?_, fun hlow hhigh => ?_⟩
    · have hfails : applyAttempt s.committed ⟨s.tick, s.timeUnset⟩ (.failure .stretchTimeout 0) env =
          ({ s.committed with sample := ⟨none, none, 0, false, false, 1, false⟩ },
            [⟨.sensorFault, ⟨s.tick, s.timeUnset⟩, 0x04, 0x00010000⟩]) := by
        rw [applyAttempt_failure, failureOf]
        dsimp only
        rw [hsample]
        rfl
      rw [hfails] at hstretch
      obtain ⟨hdone, hlog, hcommitted, hevents, hdev', hcontexts, hframe⟩ := s.absorbMount_fields env.guardHigh [.release]
        ({ s.committed with sample := ⟨none, none, 0, false, false, 1, false⟩ },
          [⟨.sensorFault, ⟨s.tick, s.timeUnset⟩, 0x04, 0x00010000⟩])
      have hrecorded (e : Raised) : (s.recordAll [e]).events = s.events ++ [⟨s.nextEvent, e⟩] :=
        congrArg State.events (if_pos (show s.events.length < maxEvents from Nat.lt_succ_of_lt hroom))
      exact ⟨_, hstretch, hdone, hlog, hcommitted, hevents.trans (hrecorded _), hdev'.trans hdev, hcontexts, hframe⟩
    · obtain ⟨-, -, -, -, hread⟩ := attempt_cases s.committed.tables.settings ⟨0, true, true, true, word⟩
        (p := fun acts e => exec (.sensorAttempt ⟨0, true, true, true, word⟩ env) s =
          .next ((s.attempted env.guardHigh acts).absorbMount
            (applyAttempt s.committed ⟨s.tick, s.timeUnset⟩ e env)).settle) (hattempt _)
      replace hread := hread (Nat.zero_le _) rfl rfl rfl
      rw [wordEnd_value hlow hhigh, applyAttempt_value] at hread
      generalize BitVec.ofInt 16 (busValue s.committed.tables.settings word) = v at hread ⊢
      have hsampledAs : s.committed.sampled v .external = { s.committed with
          sample := ⟨some v, some .external, 0, false, false, 0, false⟩
          activeProfile := selectIndex s.committed.profiles (some v) } := by
        rw [Committed.sampled, indexFor, hsample]
        rfl
      rw [hsampledAs] at hread
      obtain ⟨hdone, hlog, hcommitted, hevents, hdev', hcontexts, hframe⟩ := s.absorbMount_fields env.guardHigh
        (busRecovery 0 ++ busRun s.committed.tables.settings word)
        ({ s.committed with
            sample := ⟨some v, some .external, 0, false, false, 0, false⟩
            activeProfile := selectIndex s.committed.profiles (some v) },
          changeOf s.committed ⟨s.tick, s.timeUnset⟩ (selectIndex s.committed.profiles (some v)) v)
      have hlength := changeOf_length_le s.committed ⟨s.tick, s.timeUnset⟩ (selectIndex s.committed.profiles (some v)) v
      obtain ⟨-, hrecorded⟩ := State.recordAll_room
        (changeOf s.committed ⟨s.tick, s.timeUnset⟩ (selectIndex s.committed.profiles (some v)) v) s (by omega)
      exact ⟨_, hread, hdone, hlog, hcommitted, (congrArg _ hevents).trans hrecorded, hdev'.trans hdev, hcontexts, hframe⟩

end Sys2Proof.Machine
end
